-- ==== Sys2Proof/Word.lean ====
section
/-! DEFINITION. The word types of the SHX-1216 model. -/

namespace Sys2Proof

/-- One byte of a packet, a tile, an image or a bus message. -/
abbrev Byte := BitVec 8
/-- A packet or record field of two bytes. -/
abbrev W16 := BitVec 16
/-- A register word (R29: every BAR0 access is one aligned 32-bit word). -/
abbrev W32 := BitVec 32
/-- The timebase, a packet's 8-byte field (R53). -/
abbrev W64 := BitVec 64

/-- A voltage as an integer count of 7.8125 nV, the largest unit in which a VCODE step (1.25 mV, R110),
the loop's error count (1/256 of it, R134), a VMEAS count (0.25 mV, R129) and a load-line code times one
milliampere (31.25 nV, R112) are all whole. -/
abbrev Volt := Int

/-- A current in milliamperes (R129). -/
abbrev MilliAmp := Int

end Sys2Proof
end

