-- ==== Sys2Proof/Syntax.lean ====
section
/-! DEFINITION. The commands of the SHX-1216: one constructor per row of spec/opcode_table.json, with what the
outside supplies as its operands. -/

namespace Sys2Proof

/-- The two compute dies (R12). -/
inductive Half where
  | a | b
  deriving DecidableEq, Repr

/-- Half A is 0 and Half B is 1 wherever the manual numbers the halves (R12). -/
def Half.idx : Half → Nat
  | .a => 0
  | .b => 1

/-- The half on the other side of the crosscut. -/
def Half.other : Half → Half
  | .a => .b
  | .b => .a

/-- The masters of register accesses (R37). Service cores 0-3 are Half A's and 4-7 Half B's (R325). -/
inductive Master where
  | hosta
  | hostb
  | ovm (core : Fin 8)
  | dep (h : Half)
  | twi
  deriving DecidableEq, Repr

/-- What an access addresses: the registers of BAR0, a queue's window in BAR2 with the bytes a write carries, or the
MSI-X structures of BAR4 (R239). -/
inductive Bar where
  | registers
  | window (q : Fin 1024) (bytes : List Byte)
  | msix
  deriving DecidableEq, Repr

/-- A link error at a port's endpoint, correctable or not (R242). -/
structure PortError where
  port        : Half
  correctable : Bool
  deriving DecidableEq, Repr

/-- One access to a BAR that has no row of its own: a write of a word, or a read. -/
structure Access where
  master   : Master
  /-- The offset in BAR0, in the queue's window, or in BAR4. -/
  offset   : BitVec 24
  /-- `some v` writes v; `none` reads. -/
  write    : Option W32
  /-- False for any request that is not one DW with byte enables 0b1111 (R29). -/
  oneDword : Bool
  /-- The write arrived poisoned (R242). -/
  poisoned : Bool
  bar      : Bar := .registers
  deriving DecidableEq, Repr

/-- A unit reset as one event, or its start and its end apart: its length is not stated (R24). -/
inductive ResetPhase where
  | whole | start | finish
  deriving DecidableEq, Repr

/-- The straps sampled at PORST_N deassertion (R68). -/
structure Straps where
  addrSel : BitVec 2
  twiVsel : Bool
  deriving DecidableEq, Repr

/-- What a cluster's converters measure for one inner sample (R131, R129). -/
structure InnerMeas where
  remote : Volt
  loc    : Volt
  vin    : Volt
  /-- Per-period average current of cells 0-7 over the sample (R112). -/
  cells  : List MilliAmp
  deriving DecidableEq, Repr

/-- What the clusters of a domain part measure before they start (R117), in cluster order. -/
structure StartMeas where
  remote : List Volt
  loc    : List Volt
  vin    : Volt
  deriving DecidableEq, Repr

/-- What a rail's outer loop reads on one outer sample: its sense points and VSETA in 1/4,096 of 1.2 V (R146). -/
structure OuterMeas where
  sense : List Volt
  vseta : Nat
  deriving DecidableEq, Repr

/-- What an ECC decoder finds (R232). -/
inductive Ecc where
  | clean | corrected | uncorrectable
  deriving DecidableEq, Repr

/-- Where a memory error lies (R232). -/
inductive EccSite where
  | seamTensor (slot : Fin 64) (tensor : Nat)
  | homeTensor (slot : Fin 64) (tensor : Nat)
  | context (session : W32) (inSeam : Bool)
  | queueBuffer (q : Fin 1024) (tag : W32)
  | reserve
  deriving DecidableEq, Repr

/-- The outcome of one read of memory (R232). -/
inductive MemRead where
  | clean
  | corrected (seam : Bool)
  | uncorrectable (site : EccSite)
  deriving DecidableEq, Repr

/-- Which of its two tallies a message carries (R213). -/
inductive TallyKind where
  | space | data
  deriving DecidableEq, Repr

/-- A message of a checker as it arrives at a Canary (R321), with what the unit supplies beside it. -/
structure CanMsg where
  word0  : W64
  word1  : W32
  addrHi : Option W16
  master : Byte
  access : BitVec 3
  /-- The condition that raises the class of PD_SEQ_FAIL or DRAM_ECC_UE holds (R329). -/
  cond   : Bool
  deriving DecidableEq, Repr

/-- Where a STORE or an ARB_ADVANCE request comes from: a CONFIG packet of a queue, or a register write (R304). -/
inductive KeySource where
  | packet (q : Fin 1024)
  | register (m : Master) (v : W32)
  deriving DecidableEq, Repr

/-- A TWI0 message after its command code (R345): the address it was sent to, the count byte, the data bytes
and the PEC byte when one was sent; whether the answer was ready within the stretch limit (R349). A command code outside the
table is no row of its own: `unknown` says that the message came with one. -/
structure TwiMsg where
  addr  : BitVec 7
  count : Byte
  data  : List Byte
  pec   : Option Byte
  ready : Bool
  unknown : Bool := false
  deriving DecidableEq, Repr

/-- How a converter answers one attempt of a TWI1 message (R354). -/
inductive BusAnswer where
  | ack (data : W16)
  | nackAddress
  | nackData
  | wrongPec
  deriving DecidableEq, Repr

/-- What bus clear finds (R356). -/
inductive BusClear where
  | freed | sdaStuck | sclStuck
  deriving DecidableEq, Repr

/-- The commands of the block, in the table's order. -/
inductive Instr where
  -- registers and transactions
  | registerWrite (acc : Access)
  | txnBegin (m : Master) (slot : Fin 5) (tag : W16)
  | txnCommit (m : Master) (slot : Fin 5) (tag : W16)
  | txnAbort (m : Master) (slot : Fin 5) (tag : W16)
  | txnTimeout (slot : Fin 10)
  | checkBoundary (slot : Fin 10)
  | go (slot : Fin 10) (farResultInTime : Bool)
  | applicationBoundary (slot : Fin 10) (goArrived : Bool)
  | unitReset (m : Master) (offset : BitVec 24) (phase : ResetPhase)
  | tbloRead (m : Master)
  -- clocks
  | mgmtClkCount (h : Half) (edges : Nat)
  | mgmtClkLost (h : Half)
  | pllUnlock (h : Half) (pll : Fin 9)
  | xingCmpl (h : Half) (unit : BitVec 10) (addr : W32)
  | alignmentExchange
  | tbUnaligned (h : Half)
  -- supplies, pins, resets
  | vinLockoutRelease (h : Half) (samples : List Volt)
  | vinUv (h : Half) (samples : List Volt)
  | vinOvWarn (h : Half) (samples : List Volt)
  | vinOv (h : Half) (samples : List Volt)
  | porstN
  | porstNDeassertion (straps : Straps) (bellUp : Bool)
  | warmN
  | deputyWatchdog (h : Half)
  | persthNAssertion (h : Half)
  | persthNDeassertion (h : Half)
  | wakeN
  -- power domains
  | dcmdOn (d : Fin 8)
  | dcmdOff (d : Fin 8)
  | dcmdRetain (d : Fin 8)
  | dcmdReset (d : Fin 8)
  | sequenceStep (part : Fin 10) (m : StartMeas)
  | pdSeqFail (part : Fin 10) (reason : Byte)
  | dormant
  | softwareDeviceReset
  | halfResetA
  | halfResetB
  | coldInhibitClear (h : Half)
  | selfwarmStart (h : Half)
  | selfwarmTimeout (h : Half)
  -- regulation
  | innerLoopSample (n : Fin 72) (m : InnerMeas)
  | slewDone (n : Fin 72)
  | slewLate (n : Fin 72)
  | outerLoopSample (r : Fin 12) (m : OuterMeas)
  | cellTrimLimit (n : Fin 72) (c : Fin 8)
  | firingRotation (n : Fin 72)
  | syncAcquire (g : Fin 4) (periods : List Nat)
  | syncLocked (g : Fin 4) (freq : Nat)
  | syncLost (g : Fin 4)
  | glideComplete (g : Fin 4)
  | sensePointInvalid (r : Fin 12) (k : Fin 4)
  | sensePointValid (r : Fin 12) (k : Fin 4)
  | pulsePeriod (r : Fin 12) (high : Nat) (period : Nat)
  | followLost (r : Fin 12)
  | followResume (r : Fin 12)
  | plausibility (n : Fin 72)
  | capctlArm (m : Master) (n : Fin 72) (dec : Byte) (trig : BitVec 2)
  | capctlStop (m : Master) (n : Fin 72)
  | capctlRel (m : Master) (n : Fin 72)
  | captureTrigger (n : Fin 72)
  | captureFull (n : Fin 72)
  | capd3Read (m : Master) (n : Fin 72)
  -- protection
  | cycleLimit (n : Fin 72) (c : Fin 8) (current : MilliAmp) (period : Nat)
  | cellLimit (n : Fin 72) (c : Fin 8)
  | hardShortEvent (n : Fin 72) (c : Fin 8) (current : MilliAmp) (period : Nat)
  | brakeEntry (n : Fin 72)
  | brakeExit (n : Fin 72)
  | ov (n : Fin 72)
  | ovResume (n : Fin 72)
  | uv (n : Fin 72)
  | senseLost (n : Fin 72)
  -- governor, DVFS, heat
  | lullTimeout (h : Half) (k : Fin 32)
  | oneMsBoundary
  | frequencyRequest (h : Half)
  | pllLockComplete (h : Half)
  | frequencySwitch (h : Half)
  | dvfsLockFail (h : Half)
  | thermalScan (h : Half) (counts : List Nat)
  | thmSensorFault (h : Half) (i : Fin 60)
  | sensorValid (h : Half) (i : Fin 60)
  -- bays and tiles
  | opMma (k : Fin 56) (e : Ecc)
  | opAccout (k : Fin 56) (e : Ecc)
  | opAdd (k : Fin 56) (e : Ecc)
  | opMul (k : Fin 56) (e : Ecc)
  | opFma (k : Fin 56) (e : Ecc)
  | opMin (k : Fin 56) (e : Ecc)
  | opMax (k : Fin 56) (e : Ecc)
  | opCmp (k : Fin 56) (e : Ecc)
  | opSel (k : Fin 56) (e : Ecc)
  | opExp (k : Fin 56) (e : Ecc)
  | opRecip (k : Fin 56) (e : Ecc)
  | opRsqrt (k : Fin 56) (e : Ecc)
  | opRowsum (k : Fin 56) (e : Ecc)
  | opRowmax (k : Fin 56) (e : Ecc)
  | opCvt (k : Fin 56) (e : Ecc)
  | opSample (k : Fin 56) (e : Ecc)
  | tallyMessage (slot : Fin 64) (stream : W16) (kind : TallyKind)
  | tileMove (m : Fin 16)
  | tileMoveDone (m : Fin 16) (r : MemRead)
  | stepBoundary (slot : Fin 64)
  | tallyStall (slot : Fin 64) (stream : W16)
  | bayLockup (k : Fin 56)
  | tmFault (m : Fin 16)
  | stepRepeat (slot : Fin 64) (lost : Fin 56)
  | bayHold (m : Master) (k : Fin 56)
  -- queues
  | windowWrite (q : Fin 1024) (off : W16) (bytes : List Byte) (poisoned : Bool)
  | doorbell (m : Master) (q : Fin 1024) (v : W32)
  | rhead (m : Master) (q : Fin 1024) (v : W32)
  | qEnable (m : Master) (q : Fin 1024)
  | qDisable (m : Master) (q : Fin 1024)
  | qReset (m : Master) (q : Fin 1024)
  | qResume (m : Master) (q : Fin 1024)
  | qResync (m : Master) (q : Fin 1024)
  -- packets: the oldest accepted packet of the queue that no answer has taken
  | request (q : Fin 1024)
  | continuePacket (q : Fin 1024)
  | cancel (q : Fin 1024)
  | sessionOpen (q : Fin 1024)
  | sessionClose (q : Fin 1024)
  | loadBegin (q : Fin 1024)
  | loadData (q : Fin 1024)
  | loadEnd (q : Fin 1024)
  | lodePlaced (slot : Fin 64)
  | unload (q : Fin 1024)
  | fwBegin (q : Fin 1024)
  | fwData (q : Fin 1024)
  | fwEnd (q : Fin 1024)
  | serve (m : Master)
  | serveTimeout (h : Half)
  | wdkick (m : Master)
  | ovmWatchdog (h : Half)
  | ovmBusViolation (core : Fin 8) (write : Bool) (addr : BitVec 48)
  -- CONFIG packets, by the key of their first item
  | envVmin (q : Fin 1024)
  | envVmax (q : Fin 1024)
  | envImax (q : Fin 1024)
  | envPceil (q : Fin 1024)
  | envTtrip (q : Fin 1024)
  | envDommask (q : Fin 1024)
  | ovmWdtime (q : Fin 1024)
  | ovmRestart (q : Fin 1024)
  | keyPown (q : Fin 1024)
  | keyPmbusAddr (q : Fin 1024)
  | store (src : KeySource)
  | storeComplete (readBackOk : Bool)
  | arbAdvance (src : KeySource) (verified : Bool)
  | weightShort (q : Fin 1024)
  | weightInteractive (q : Fin 1024)
  | weightBulk (q : Fin 1024)
  | weightBackground (q : Fin 1024)
  | quantum (q : Fin 1024)
  | batchmax (q : Fin 1024)
  | steptok (q : Fin 1024)
  | prefillchunk (q : Fin 1024)
  | capdelta (q : Fin 1024)
  | teleperiod (q : Fin 1024)
  | telemetryUpdate
  -- output
  | ringWrite (q : Fin 1024)
  | mailboxWrite (q : Fin 1024)
  | msixMessage (q : Fin 1024)
  | busMasterEnable (port : Half) (enabled : Bool) (d0 : Bool)
  | saturated
  -- Canary
  | canaryReport (h : Half) (msg : Option CanMsg)
  | notice (h : Half)
  | release (m : Master) (h : Half)
  | cntclr (m : Master) (h : Half)
  | safeStateDomains (h : Half)
  | haltEscalation (h : Half)
  | injreq (m : Master) (h : Half) (v : W32)
  | injcmdArm (m : Master) (h : Half)
  | injcmdCancel (m : Master) (h : Half)
  -- TWI0
  | twiSetPtr (msg : TwiMsg)
  | twiRead (msg : TwiMsg)
  | twiWrite (msg : TwiMsg)
  | twiReadAt (msg : TwiMsg)
  | twiStatus (msg : TwiMsg)
  | twiStretchLimit (ctx : Fin 4)
  | twiBusStuck
  -- TWI1
  | depq1 (m : Master) (v : W32)
  | ovmq1 (m : Master) (v : W32)
  | rspd (m : Master)
  | rspo (m : Master)
  | pmOperation (r : BusAnswer)
  | pmClearFaults (r : BusAnswer)
  | pmVoutMode (r : BusAnswer)
  | pmStatusWord (r : BusAnswer)
  | pmStatusVout (r : BusAnswer)
  | pmStatusIout (r : BusAnswer)
  | pmStatusInput (r : BusAnswer)
  | pmStatusTemperature (r : BusAnswer)
  | pmReadVin (r : BusAnswer)
  | pmReadVout (r : BusAnswer)
  | pmReadIout (r : BusAnswer)
  | pmReadTemperature1 (r : BusAnswer)
  | pmReadPout (r : BusAnswer)
  | pmbusRetry (r : BusAnswer)
  | twiArbLost
  | busClear (r : BusClear)
  | poll
  -- crosscut and bell line; a frame's half is the one that receives it, but SPLIT_REQ names the detecting half
  | linkCrcRetry (h : Half) (replayFailed : Bool)
  | linkLaneRepair (h : Half) (bundle : Fin 64) (lane : BitVec 6)
  | linkTallyTimeout (h : Half)
  | heartbeat (h : Half)
  | tbAlign (offset : Int)
  | splitReq (h : Half) (reason : Byte)
  | splitGo
  | splitAck
  | powerBin (h : Half) (bin : Nat)
  | nvmFrame (h : Half) (payload : List Byte)
  | twiFrame (h : Half) (payload : List Byte)
  | retrainFrame (h : Half) (payload : Byte)
  | bellSilent (h : Half)
  | retrainRequest (m : Master) (v : W32)
  | trainingDone
  | trainingTimeout (h : Half) (unrepairable : Bool)
  -- the last rows of the table
  | vauxOutOfRange
  | poolRefill (h : Half)
  | pcieLinkErr (err : PortError)
  | backgroundScrub (h : Half) (r : MemRead)
  deriving DecidableEq, Repr

end Sys2Proof
end

