-- ==== Sys2Proof/Decode.lean ====
section
/-! DEFINITION. The command a word of spec/opcode_table.json spells. -/

namespace Sys2Proof

/-- No row of the table gives a command any bits, so no word spells one (DESIGN CHOICE, LOG 1). -/
def decodeTableWord (_nbits _w : Nat) : Option Instr := none

end Sys2Proof
end

