-- ==== Sys2Proof/Machine/Bits.lean ====
section
/-! DEFINITION. Bit fields, complement pairs, byte order, checksums. -/

namespace Sys2Proof.Machine

/-- Bits [hi:lo] of a word as a number (R4). -/
def fld (w : W32) (hi lo : Nat) : Nat := (w.toNat >>> lo) % 2 ^ (hi - lo + 1)

/-- Bit i of a word. -/
def bit (w : W32) (i : Nat) : Bool := w.getLsbD i

/-- A word of 32 bits from a number. -/
def w32 (n : Nat) : W32 := BitVec.ofNat 32 n

/-- 1 for true, shifted to bit i. -/
def flag (b : Bool) (i : Nat) : Nat := if b then 2 ^ i else 0

/-- A word with bits [hi:lo] replaced by v. -/
def setFld (w : W32) (hi lo v : Nat) : W32 :=
  let n := hi - lo + 1
  let mask := w32 ((2 ^ n - 1) <<< lo)
  (w &&& ~~~mask) ||| w32 ((v % 2 ^ n) <<< lo)

/-- The complement pair of a 16-bit value: value in [15:0], ones' complement in [31:16] (R31). -/
def cpWord (v : Nat) : W32 := w32 ((0xFFFF - v % 0x10000) * 0x10000 + v % 0x10000)

/-- The complement check over all 16 bits as written (R32). -/
def cpOk (w : W32) : Bool := w == cpWord (w.toNat % 0x10000)

/-- Bits [15:0] of a word. -/
def low16 (w : W32) : Nat := w.toNat % 0x10000

/-- A signed number in n bits of two's complement. -/
def ofSigned (n : Nat) (i : Int) : Nat := (i % (2 ^ n : Nat)).toNat

/-- The number whose n low bits in two's complement are those of v. -/
def toSigned (n v : Nat) : Int :=
  let u := v % 2 ^ n
  if u < 2 ^ (n - 1) then (u : Int) else (u : Int) - (2 ^ n : Nat)

/-- Clamp an integer to a range. -/
def clampInt (lo hi i : Int) : Int := if i < lo then lo else if hi < i then hi else i

/-- Clamp a number from above. -/
def satNat (cap n : Nat) : Nat := if cap < n then cap else n

/-- Add one to a saturating counter of n bits. -/
def satInc {n : Nat} (v : BitVec n) : BitVec n := if v = BitVec.allOnes n then v else v + 1#n

/-- A quotient rounded to nearest, ties away from zero. -/
def roundDiv (a : Int) (b : Nat) : Int :=
  if a < 0 then -(((-a).toNat * 2 + b) / (2 * b) : Nat) else ((a.toNat * 2 + b) / (2 * b) : Nat)

/-- n bytes of v, least significant first (R4). -/
def leBytes : Nat → Nat → List Byte
  | 0, _ => []
  | n + 1, v => BitVec.ofNat 8 v :: leBytes n (v / 256)

/-- The number whose little-endian bytes these are (R4). -/
def leNat : List Byte → Nat
  | [] => 0
  | b :: bs => b.toNat + 256 * leNat bs

/-- Big-endian, as FIPS 186 encodes keys and signatures (R306). -/
def beNat (bs : List Byte) : Nat := leNat bs.reverse

/-- Bytes lo to lo + n − 1 of a list; absent bytes read 0. -/
def slice (bs : List Byte) (lo n : Nat) : List Byte :=
  (List.range n).map fun i => bs.getD (lo + i) 0#8

/-- The little-endian number of n bytes from lo. -/
def fieldAt (bs : List Byte) (lo n : Nat) : Nat := leNat (slice bs lo n)

/-- All bytes lo to lo + n − 1 are 0. -/
def zerosAt (bs : List Byte) (lo n : Nat) : Bool := (slice bs lo n).all (· == 0#8)

/-- One byte into a reflected CRC-32C register. -/
def crc32cByte (c : W32) (b : Byte) : W32 :=
  (List.range 8).foldl (fun r _ => if r.getLsbD 0 then (r >>> 1) ^^^ 0x82F63B78#32 else r >>> 1)
    (c ^^^ b.setWidth 32)

/-- CRC-32C (Castagnoli), initial value and final XOR all ones (file 00). -/
def crc32c (bs : List Byte) : W32 := ~~~(bs.foldl crc32cByte 0xFFFFFFFF#32)

/-- One byte into the SMBus CRC-8 register: polynomial x⁸ + x² + x + 1 (R341). -/
def crc8Byte (c : Byte) (b : Byte) : Byte :=
  (List.range 8).foldl (fun r _ => if r.getLsbD 7 then (r <<< 1) ^^^ 0x07#8 else r <<< 1) (c ^^^ b)

/-- The PEC of a message (R341). -/
def pec (bs : List Byte) : Byte := bs.foldl crc8Byte 0#8

/-- A length rounded up to a multiple of 64 (file 11). -/
def pad64 (n : Nat) : Nat := (n + 63) / 64 * 64

/-- x lies beyond the limit L when (x − L) mod 2³² lies in 1–2³¹ (R247). -/
def beyond (x l : W32) : Bool :=
  let d := (x - l).toNat
  decide (1 ≤ d ∧ d ≤ 2 ^ 31)

/-- Add to a list of numbers once. -/
def addOnce (x : Nat) (xs : List Nat) : List Nat := if xs.contains x then xs else xs ++ [x]

end Sys2Proof.Machine
end

