-- ==== Sys2Proof/Machine/Crypto.lean ====
section
/-! DEFINITION. SHA-384 (FIPS 180) and ECDSA P-384 verification (FIPS 186), which R306-R309 name. -/

namespace Sys2Proof.Machine

/-! ## SHA-384

Every constant is computed from what FIPS 180 says it is: 64 bits of the fractional part of a root of a prime. -/

/-- The largest number whose k-th power is at most x, found bit by bit from bit n - 1 down, above what is already found. -/
def rootFrom (k x : Nat) : Nat → Nat → Nat
  | 0, found => found
  | n + 1, found =>
    let tried := found + 2 ^ n
    rootFrom k x n (if tried ^ k ≤ x then tried else found)

/-- The first 64 bits of the fractional part of the k-th root of a prime below 512. -/
def rootFraction (k p : Nat) : W64 := BitVec.ofNat 64 (rootFrom k (p * 2 ^ (64 * k)) 70 0)

/-- The first 80 primes. -/
def shaPrimes : List Nat :=
  (List.range 410).filter fun n => 2 ≤ n ∧ ∀ q ∈ List.range n, q < 2 ∨ n % q ≠ 0

/-- A message followed by a 1 bit, zeros, and its length in bits as the last 16 bytes of a block of 128. -/
def shaFill (m : List Byte) : List Byte :=
  let short := m ++ [0x80#8]
  let zeros := 128 - (short.length + 16) % 128
  short ++ List.replicate (zeros % 128) 0#8 ++ (leBytes 16 (8 * m.length)).reverse

/-- The XOR of one word turned right by each amount of a list. -/
def turned (x : W64) (amounts : List Nat) : W64 := amounts.foldl (fun y k => y ^^^ x.rotateRight k) 0#64

/-- One round: the rolling window of the 16 schedule words still to be used (the oldest is this round's) and the eight
working words a to h. -/
def shaStep (window h : List W64) (k : W64) : List W64 × List W64 :=
  let w (j : Nat) := window.getD j 0#64
  let v (j : Nat) := h.getD j 0#64
  let chosen := v 6 ^^^ (v 4 &&& (v 5 ^^^ v 6))
  let agreed := (v 0 &&& (v 1 ||| v 2)) ||| (v 1 &&& v 2)
  let mixed := k + w 0 + v 7 + chosen + turned (v 4) [41, 18, 14]
  let fresh := w 0 + w 9 + (turned (w 1) [8, 1] ^^^ (w 1 >>> 7)) + (turned (w 14) [61, 19] ^^^ (w 14 >>> 6))
  (window.tail ++ [fresh],
   [mixed + agreed + turned (v 0) [39, 34, 28], v 0, v 1, v 2, v 3 + mixed, v 4, v 5, v 6])

/-- The hash words after one block. -/
def shaBlock (ks h : List W64) (block : List Byte) : List W64 :=
  let window := (List.range 16).map fun j => BitVec.ofNat 64 (beNat (slice block (8 * j) 8))
  let out := ks.foldl (fun acc k => shaStep acc.1 acc.2 k) (window, h)
  List.zipWith (· + ·) h out.2

/-- The 48 bytes of SHA-384 of a message (R306-R309). -/
def sha384 (m : List Byte) : List Byte :=
  let ks := shaPrimes.map (rootFraction 3)
  let text := shaFill m
  let final := (List.range (text.length / 128)).foldl (fun h j => shaBlock ks h (slice text (128 * j) 128))
    (((shaPrimes.drop 8).take 8).map (rootFraction 2))
  (final.take 6).flatMap fun x => (leBytes 8 x.toNat).reverse

/-! ## ECDSA over P-384 -/

def p384p : Nat := 0xfffffffffffffffffffffffffffffffffffffffffffffffffffffffffffffffeffffffff0000000000000000ffffffff
def p384n : Nat := 0xffffffffffffffffffffffffffffffffffffffffffffffffc7634d81f4372ddf581a0db248b0a77aecec196accc52973
def p384b : Nat := 0xb3312fa7e23ee7e4988e056be3f82d19181d9c6efe8141120314088f5013875ac656398d8a2ed19d2a85c8edd3ec2aef
def p384gx : Nat := 0xaa87ca22be8b05378eb1c71ef320ad746e1d3b628ba79b9859f741e082542a385502f25dbf55296c3a545e3872760ab7
def p384gy : Nat := 0x3617de4a96262c6f5d9e98bf9292dc29f8f41dbd289a147ce9da3113b5f0b8c00a60b1ce1d7e819d7a431d7c90ea0e5f

/-- x to the power e modulo m, by squaring; `fuel` bits of e. -/
def powMod (m : Nat) : Nat → Nat → Nat → Nat
  | 0, _, _ => 1 % m
  | k + 1, x, e =>
    let r := powMod m k (x * x % m) (e / 2)
    if e % 2 = 1 then r * x % m else r

/-- The inverse modulo a prime. -/
def invMod (m x : Nat) : Nat := powMod m 384 x (m - 2)

/-- A point of the curve; none is the point at infinity. -/
abbrev EcPoint := Option (Nat × Nat)

def ecAdd : EcPoint → EcPoint → EcPoint
  | none, q => q
  | p, none => p
  | some (x1, y1), some (x2, y2) =>
    if x1 = x2 ∧ (y1 + y2) % p384p = 0 then none
    else
      let l := if x1 = x2 then (3 * x1 * x1 + (p384p - 3)) * invMod p384p (2 * y1) % p384p
        else (y2 + (p384p - y1)) * invMod p384p (x2 + (p384p - x1)) % p384p
      let x := (l * l + (p384p - x1) + (p384p - x2)) % p384p
      some (x, (l * (x1 + (p384p - x)) + (p384p - y1)) % p384p)

/-- k times a point, by doubling; `fuel` bits of k. -/
def ecMul : Nat → Nat → EcPoint → EcPoint
  | 0, _, _ => none
  | f + 1, k, p =>
    let r := ecMul f (k / 2) (ecAdd p p)
    if k % 2 = 1 then ecAdd r p else r

/-- A public key that is a point of the curve other than infinity. -/
def onCurve (x y : Nat) : Bool :=
  decide (x < p384p ∧ y < p384p ∧ y * y % p384p = (x * x * x + (p384p - 3) * x + p384b) % p384p)

/-- The signature (r, s) of a 48-byte digest verifies under the key (x, y). -/
def ecdsaVerify (digest : List Byte) (x y r s : Nat) : Bool :=
  if onCurve x y ∧ 1 ≤ r ∧ r < p384n ∧ 1 ≤ s ∧ s < p384n then
    let z := beNat digest
    let w := invMod p384n s
    match ecAdd (ecMul 384 (z * w % p384n) (some (p384gx, p384gy))) (ecMul 384 (r * w % p384n) (some (x, y))) with
    | none => false
    | some (x1, _) => x1 % p384n == r
  else false

end Sys2Proof.Machine
end

