-- ==== Sys2Proof/Config.lean ====
section
/-! DEFINITION. What one part fixes (calibration, fuses) and the values the manual leaves open. Every constant is
opaque: nothing in Lean can evaluate it, so a claim about the model holds for every value of it. -/

namespace Sys2Proof.Config

/-- The calibration region's word for the register at a BAR0 offset, bits [15:0] for a CP register (R129, R130,
R156, R202, R28; DESIGN CHOICE, LOG 3). -/
opaque calWord : Nat → BitVec 32

/-- A word of a half's calibration region as the store window shows it (R315, R320; DESIGN CHOICE, LOG 3). -/
opaque calRegion : Nat → Nat → BitVec 32

/-- Quiescent current IQ of a cluster at a frequency code, in mA (R186). -/
opaque quiescent : Nat → Nat → Nat

/-- Cost in mA of a seam access (R184). -/
opaque seamAccessCost : Nat

/-- PSW of a cluster in units of 7.8125 nV x 1 mA (R199). -/
opaque switchLoss : Nat → Nat
/-- RLOSS of a cluster: power per mA squared, same unit (R199). -/
opaque resistiveLoss : Nat → Nat
/-- Fixed overhead of a half's island, same unit (R199). -/
opaque islandOverhead : Nat → Nat

/-- The count N1 of a sensor at 25.0 °C, by half and sensor (R195). -/
opaque sensorN1 : Nat → Nat → Nat
/-- The count N2 of a sensor at 105.0 °C (R195). -/
opaque sensorN2 : Nat → Nat → Nat

/-- BFRAC during self-warm, by COLD.SWPWR and the measured CORE power of both halves in mW (R194 gives no rule; DESIGN CHOICE, LOG 19). -/
opaque warmFraction : Nat → Nat → Nat

/-- The RLLR value of a CORE rail for which VFTAB was written, by half (R191). -/
opaque rllrCal : Nat → BitVec 16

/-- The cell that an OV, OV_REPEAT, UV or SENSE_LOST report names, by cluster and kind: these are a cluster's, and the spec gives
no cell (R180; DESIGN CHOICE, LOG 66). -/
opaque reportCell : Nat → Nat → Nat

/-- READ_VOUT of a DRAM rail's converter confirms it, by converter, VOUT_MODE and reading: the rail's range is that of the JEDEC
HBM3 standard, which the spec does not repeat (R72, R88; DESIGN CHOICE, LOG 15). -/
opaque voutConfirms : Nat → Nat → Nat → Bool

/-- The fused key hash of a half, 48 bytes (R309). -/
opaque keyHash : Nat → List (BitVec 8)
/-- The fuses of a half hold a key hash (R309, R310). -/
opaque keyProgrammed : Nat → Bool
/-- The anti-rollback counter of a half as delivered (R309). -/
opaque antiRollback : Nat → Nat
/-- ROM version word of DVER (R310). -/
opaque romVersion : BitVec 16
/-- The code DSTAT[15:8] shows for boot stage k; its encoding is not given (R310). -/
opaque bootStage : Nat → BitVec 8

/-- Rank of the k-th product in the order of additions into an accumulator (R206 gives no order; DESIGN CHOICE, LOG 8). -/
opaque addRank : Nat → Nat
/-- Distance in units in the last place, by operation and operand, of a transcendental result from the correctly
rounded one (R207 bounds it; DESIGN CHOICE, LOG 8). -/
opaque ulpError : Nat → BitVec 32 → Nat
/-- Mantissa bits of a NaN result, by operation and operands (DESIGN CHOICE, LOG 8). -/
opaque nanPayload : Nat → BitVec 32 → BitVec 32 → Nat
/-- Which of two operands a minimum or maximum takes where the order of the two is not stated (NaN, zeros of
both signs; DESIGN CHOICE, LOG 8). -/
opaque pickSecond : Nat → BitVec 32 → BitVec 32 → Bool
/-- Which operand SEL takes, by the parameter, the element of A and the element of B (R207 names no condition; DESIGN CHOICE, LOG 8). -/
opaque selectSecond : BitVec 32 → BitVec 32 → BitVec 32 → Bool
/-- The element CMP writes, by outcome of the comparison (DESIGN CHOICE, LOG 8). -/
opaque compareWord : Bool → BitVec 32
/-- The outcome of CMP for the relation codes 4-7, which R222 does not name (DESIGN CHOICE, LOG 8). -/
opaque compareOther : BitVec 3 → BitVec 32 → BitVec 32 → Bool
/-- The columns of an output row that hold a row reduction (R207 names none; DESIGN CHOICE, LOG 8). -/
opaque reduceHolds : Nat → Bool
/-- What the other elements of a row reduction's output tile hold, by row and column (DESIGN CHOICE, LOG 8). -/
opaque reduceFill : Nat → Nat → BitVec 32
/-- The seam or DRAM layer an access of a lode's stream goes to, modulo 4, by slot and stream (R210; DESIGN CHOICE, LOG 9). -/
opaque tileLayer : Nat → Nat → Nat
/-- Free MiB of the first n of four seam layers or DRAM stacks, by page, n and the free MiB of all four: placement is not stated
(R234, R235; DESIGN CHOICE, LOG 9). -/
opaque layerFree : Nat → Nat → Nat → Nat
/-- The seam layer or DRAM stack, modulo 4, of a memory word that no stream names: by what it holds, and two numbers of it (R210;
DESIGN CHOICE, LOG 9). -/
opaque wordLayer : Nat → Nat → Nat → Nat
/-- The tile mover that serves a stream, by slot and stream (R212; DESIGN CHOICE, LOG 9). -/
opaque planMover : Nat → Nat → Nat
/-- INT32 of a value that INT32 does not hold exactly, by its word (R207 states no rounding and no saturation for INT32; DESIGN CHOICE, LOG 8). -/
opaque toInt32 : BitVec 32 → BitVec 32
/-- INT8 value of a NaN (R207 states none; DESIGN CHOICE, LOG 8). -/
opaque nanToInt : BitVec 32 → BitVec 8

/-- A byte of a tile that no tensor and no stream gives: an input an op does not name, or a memory stream without a
tensor, by stream and byte offset (DESIGN CHOICE, LOG 8). -/
opaque looseByte : Nat → Nat → BitVec 8

/-- A 32-bit value the manual leaves open, fresh for each count (session identifiers, R275; DESIGN CHOICE, LOG 7). -/
opaque freeWord : Nat → BitVec 32

end Sys2Proof.Config
end

