-- ==== Sys2Proof/Machine/Float.lean ====
section
/-! DEFINITION. Number formats and their arithmetic: INT8, E4M3, E5M2, FP16, BF16, binary32 (R206, R207, R209), and
the loop engines' binary32 with flushed subnormals (R135). Finite values are exact dyadic numbers m x 2^e; every
rounding is one call of `packRound`. -/

namespace Sys2Proof.Machine

/-- A decoded floating-point value. -/
inductive FVal where
  | nan
  | inf (neg : Bool)
  | fin (neg : Bool) (m : Nat) (e : Int)
  deriving DecidableEq, Repr

/-- A binary floating-point format (R209). E4M3 has no infinity and one NaN per sign. -/
structure Fmt where
  ebits : Nat
  mbits : Nat
  bias  : Nat
  infs  : Bool
  deriving DecidableEq, Repr

def fmtE4M3 : Fmt := ⟨4, 3, 7, false⟩
def fmtE5M2 : Fmt := ⟨5, 2, 15, true⟩
def fmtF16 : Fmt := ⟨5, 10, 15, true⟩
def fmtBF16 : Fmt := ⟨8, 7, 127, true⟩
def fmtF32 : Fmt := ⟨8, 23, 127, true⟩

/-- The sign bit's weight. -/
def Fmt.signBit (f : Fmt) : Nat := 2 ^ (f.ebits + f.mbits)

/-- The smallest magnitude code that is not finite. -/
def Fmt.special (f : Fmt) : Nat :=
  if f.infs then (2 ^ f.ebits - 1) * 2 ^ f.mbits else 2 ^ (f.ebits + f.mbits) - 1

/-- The value of an encoding (R209). -/
def fdecode (f : Fmt) (w : Nat) : FVal :=
  let neg := decide (w / f.signBit % 2 = 1)
  let mag := w % f.signBit
  let ex := mag / 2 ^ f.mbits
  let fr := mag % 2 ^ f.mbits
  if mag ≥ f.special then
    if f.infs && fr == 0 then .inf neg else .nan
  else if ex = 0 then .fin neg fr (1 - (f.bias : Int) - f.mbits)
  else .fin neg (fr + 2 ^ f.mbits) ((ex : Int) - f.bias - f.mbits)

/-- m / 2^d rounded to nearest, ties to even; `sticky` says that the exact value lies above m / 2^d. -/
def shiftRound (m d : Nat) (sticky : Bool) : Nat :=
  let q := m >>> d
  let r := m % 2 ^ d
  let half := 2 ^ d / 2
  if d = 0 then q
  else if r > half then q + 1
  else if r = half then (if sticky || q % 2 == 1 then q + 1 else q)
  else q

/-- The magnitude code of m x 2^e rounded to nearest with ties to even; codes from `special` on are overflow. -/
def packMag (f : Fmt) (m : Nat) (e : Int) (sticky : Bool) : Nat :=
  if m = 0 then 0
  else
    let top : Int := (Nat.log2 m : Int) + e
    let emin : Int := 1 - (f.bias : Int)
    let q : Int := max (top - f.mbits) (emin - f.mbits)
    let r := if q ≤ e then m <<< (e - q).toNat else shiftRound m (q - e).toNat sticky
    if r < 2 ^ f.mbits then r
    else ((q + f.mbits + f.bias).toNat <<< f.mbits) + (r - 2 ^ f.mbits)

/-- Round to a format; overflow gives infinity, or the largest finite magnitude when `sat` (R207). -/
def packRound (f : Fmt) (sat : Bool) (neg : Bool) (m : Nat) (e : Int) (sticky : Bool := false) : Nat :=
  let c := packMag f m e sticky
  let mag := if c ≥ f.special then (if sat || !f.infs then f.special - 1 else f.special) else c
  (if neg then f.signBit else 0) + mag

/-- A NaN of the format with free mantissa bits (DESIGN CHOICE, LOG 8). -/
def nanCode (f : Fmt) (payload : Nat) : Nat :=
  if f.infs then f.special + (payload % (2 ^ f.mbits - 1) + 1) else f.special

/-- Encode a value. -/
def fencode (f : Fmt) (sat : Bool) (payload : Nat) : FVal → Nat
  | .nan => nanCode f payload
  | .inf neg =>
    (if neg then f.signBit else 0) + (if sat || !f.infs then f.special - 1 else f.special)
  | .fin neg m e => packRound f sat neg m e

/-- Sum of two finite values as sign, magnitude, exponent; an exact zero takes the common sign, else plus. -/
def addFin (n1 : Bool) (m1 : Nat) (e1 : Int) (n2 : Bool) (m2 : Nat) (e2 : Int) : FVal :=
  let e := min e1 e2
  let a : Int := (m1 : Int) * (2 ^ (e1 - e).toNat : Nat) * (if n1 then -1 else 1)
  let b : Int := (m2 : Int) * (2 ^ (e2 - e).toNat : Nat) * (if n2 then -1 else 1)
  let s := a + b
  if s = 0 then .fin (n1 && n2) 0 e else .fin (decide (s < 0)) s.natAbs e

/-- Exact sum. -/
def fadd : FVal → FVal → FVal
  | .nan, _ => .nan
  | _, .nan => .nan
  | .inf a, .inf b => if a = b then .inf a else .nan
  | .inf a, _ => .inf a
  | _, .inf b => .inf b
  | .fin n1 m1 e1, .fin n2 m2 e2 => addFin n1 m1 e1 n2 m2 e2

/-- Exact product (R206). -/
def fmul : FVal → FVal → FVal
  | .nan, _ => .nan
  | _, .nan => .nan
  | .inf a, .inf b => .inf (a != b)
  | .inf a, .fin n m _ => if m = 0 then .nan else .inf (a != n)
  | .fin n m _, .inf b => if m = 0 then .nan else .inf (n != b)
  | .fin n1 m1 e1, .fin n2 m2 e2 => .fin (n1 != n2) (m1 * m2) (e1 + e2)

def fneg : FVal → FVal
  | .nan => .nan
  | .inf n => .inf (!n)
  | .fin n m e => .fin (!n) m e

/-- a < b; false when either is a NaN. -/
def flt : FVal → FVal → Bool
  | .nan, _ => false
  | _, .nan => false
  | .inf a, .inf b => a && !b
  | .inf a, .fin _ _ _ => a
  | .fin _ _ _, .inf b => !b
  | a, b => match fadd a (fneg b) with
    | .fin n m _ => n && m != 0
    | _ => false

/-- a = b as numbers; false when either is a NaN. -/
def feq (a b : FVal) : Bool :=
  match a, b with
  | .nan, _ => false
  | _, .nan => false
  | a, b => !flt a b && !flt b a

/-- A value is zero. -/
def fisZero : FVal → Bool
  | .fin _ m _ => m == 0
  | _ => false

/-- Nearest integer, ties to even; none for NaN and infinities. -/
def froundInt : FVal → Option Int
  | .fin n m e =>
    let r : Nat := if 0 ≤ e then m <<< e.toNat else shiftRound m (-e).toNat false
    some (if n then -(r : Int) else r)
  | _ => none

/-- num / den rounded to a format (den > 0). -/
def packRatio (f : Fmt) (neg : Bool) (num den : Nat) : Nat :=
  let k := 96 + Nat.log2 den
  let q := (num <<< k) / den
  packRound f false neg q (-(k : Int)) (decide ((num <<< k) % den ≠ 0))

/-- floor of the square root, bit by bit from bit i − 1 downward. -/
def isqrtFrom : Nat → Nat → Nat → Nat
  | 0, _, acc => acc
  | i + 1, n, acc =>
    let t := acc + 2 ^ i
    isqrtFrom i n (if t * t ≤ n then t else acc)

/-- floor of the square root. -/
def isqrt (n : Nat) : Nat := isqrtFrom (Nat.log2 n / 2 + 1) n 0

/-- ln 2 x 2^128, rounded down. -/
def ln2Fixed : Nat := 0xB17217F7D1CF79ABC9E3B39803F2F6AF

/-- Σ r^i / i! in 128 fractional bits, by terms. -/
def expTerms : Nat → Nat → Nat → Nat → Nat
  | 0, _, _, acc => acc
  | n + 1, r, t, acc =>
    let i := 48 - n
    let t' := t * r / 2 ^ 128 / i
    expTerms n r t' (acc + t')

/-- The magnitude code at or next below m x 2^e, and whether it is exact. -/
def floorMag (f : Fmt) (m : Nat) (e : Int) : Nat × Bool :=
  if m = 0 then (0, true)
  else
    let top : Int := (Nat.log2 m : Int) + e
    let q : Int := max (top - f.mbits) (1 - (f.bias : Int) - f.mbits)
    let r := if q ≤ e then m <<< (e - q).toNat else m >>> (q - e).toNat
    (if r < 2 ^ f.mbits then r else ((q + f.mbits + f.bias).toNat <<< f.mbits) + (r - 2 ^ f.mbits),
      decide (q ≤ e) || m % 2 ^ (q - e).toNat == 0)

/-- Units in the last place a transcendental may be off: 2 in binary32, 1 in BF16 (R207). -/
def ulpBound (f : Fmt) : Nat := if f.mbits = 23 then 2 else 1

/-- A transcendental result: one of the codes within the bound of R207 of the exact value, which is m x 2^e, or lies above it by less
than the last bit of m when `sticky`. Which one is a free value (DESIGN CHOICE, LOG 8). A result that rounds to zero or to
infinity stands. -/
def nearExact (f : Fmt) (op : Nat) (x : W32) (neg : Bool) (m : Nat) (e : Int) (sticky : Bool) : Nat :=
  let c := packMag f m e sticky
  if c = 0 ∨ f.special ≤ c then packRound f false neg m e sticky
  else
    let n := ulpBound f
    let (c0, whole) := floorMag f m e
    let k := Config.ulpError op x
    let mag := if whole ∧ !sticky then c0 + k % (2 * n + 1) - n else c0 + 1 + k % (2 * n) - n
    (if neg then f.signBit else 0) + satNat (f.special - 1) mag

/-- e^x of a finite x (R207). -/
def expNear (f : Fmt) (w : W32) (neg : Bool) (m : Nat) (e : Int) : Nat :=
  let big := decide (10 ≤ (Nat.log2 m : Int) + e) && m != 0
  if big then (if neg then 0 else f.special)
  else
    let mag : Nat := if 0 ≤ e + 128 then m <<< (e + 128).toNat else m >>> (-(e + 128)).toNat
    let x : Int := if neg then -(mag : Int) else mag
    let k := x / (ln2Fixed : Int)
    let r := (x - k * ln2Fixed).toNat
    let s := expTerms 48 r (2 ^ 128) (2 ^ 128)
    nearExact f 0x17 w false s (k - 128) (m != 0)

/-- Exponential of an encoded value (R207). -/
def fexp (f : Fmt) (w : Nat) : Nat :=
  match fdecode f w with
  | .nan => nanCode f (Config.nanPayload 0x17 (w32 w) 0#32)
  | .inf neg => if neg then 0 else f.special
  | .fin neg m e => expNear f (w32 w) neg m e

/-- Reciprocal (R207). -/
def frecip (f : Fmt) (w : Nat) : Nat :=
  match fdecode f w with
  | .nan => nanCode f (Config.nanPayload 0x18 (w32 w) 0#32)
  | .inf neg => if neg then f.signBit else 0
  | .fin neg m e =>
    if m = 0 then (if neg then f.signBit else 0) + f.special
    else
      let k := 96 + Nat.log2 m
      nearExact f 0x18 (w32 w) neg (2 ^ k / m) (-e - k) (decide (2 ^ k % m ≠ 0))

/-- Reciprocal square root (R207). -/
def frsqrt (f : Fmt) (w : Nat) : Nat :=
  match fdecode f w with
  | .nan => nanCode f (Config.nanPayload 0x19 (w32 w) 0#32)
  | .inf neg => if neg then nanCode f (Config.nanPayload 0x19 (w32 w) 0#32) else 0
  | .fin neg m e =>
    if m = 0 then (if neg then f.signBit else 0) + f.special
    else if neg then nanCode f (Config.nanPayload 0x19 (w32 w) 0#32)
    else
      let (m, e) := if e % 2 = 0 then (m, e) else (2 * m, e - 1)
      let k := 96 + Nat.log2 m
      let n := 2 ^ (2 * k) / m
      let s := isqrt n
      nearExact f 0x19 (w32 w) false s (-(e / 2) - k) (decide (s * s ≠ n ∨ 2 ^ (2 * k) % m ≠ 0))

/-! ## The loop engines' binary32 (R135) -/

/-- Round to binary32, subnormal results flushed to zero. -/
def round32z (v : FVal) : W32 :=
  let c := fencode fmtF32 false (Config.nanPayload 0 0#32 0#32) v
  w32 (if c % 2 ^ 31 < 2 ^ 23 then c / 2 ^ 31 * 2 ^ 31 else c)

def val32 (w : W32) : FVal := fdecode fmtF32 w.toNat

def add32 (a b : W32) : W32 := round32z (fadd (val32 a) (val32 b))
def sub32 (a b : W32) : W32 := round32z (fadd (val32 a) (fneg (val32 b)))
def mul32 (a b : W32) : W32 := round32z (fmul (val32 a) (val32 b))

/-- a < b of binary32 words. -/
def lt32 (a b : W32) : Bool := flt (val32 a) (val32 b)

/-- Clamp to ± a bound. -/
def clamp32 (bound : W32) (w : W32) : W32 :=
  if lt32 bound w then bound
  else if lt32 w (bound ^^^ 0x80000000#32) then bound ^^^ 0x80000000#32
  else w

/-- The binary32 nearest to num / den. -/
def ratio32 (num : Int) (den : Nat) : W32 :=
  let c := packRatio fmtF32 (decide (num < 0)) num.natAbs den
  w32 (if c % 2 ^ 31 < 2 ^ 23 then c / 2 ^ 31 * 2 ^ 31 else c)

/-- A binary32 encodes a finite number (R138). -/
def finite32 (w : W32) : Bool := match val32 w with
  | .fin _ _ _ => true
  | _ => false

/-- w x n rounded to the nearest integer, ties to even; 0 when not finite. -/
def scaleRound32 (w : W32) (n : Nat) : Int :=
  match val32 w with
  | .fin neg m e => (froundInt (.fin neg (m * n) e)).getD 0
  | .inf neg => if neg then -(2 ^ 40) else 2 ^ 40
  | .nan => 0

end Sys2Proof.Machine
end

