-- ==== Sys2Proof/Machine/RegMap.lean ====
section
/-! DEFINITION. The BAR0 page map (R21), the field tables as rows (R28, R37, R54, R86, R128-R130, R156, R178,
R202, R203, R233-R236, R270, R295, R300, R310, R311, R320, R337, R338, R361, R362, R379) and the Canary kinds (R329). -/

namespace Sys2Proof.Machine

/-- The page classes of R21. -/
inductive PageClass where
  | dev | tmb | txn | nvm | dep | ovm | pdm | clk | clu | lpe | ral | thm | gov | can | canj | twi | lnk
  | bay | mem | que
  deriving DecidableEq, Repr

/-- Class code (R21). -/
def PageClass.code : PageClass → Nat
  | .dev => 0x01 | .tmb => 0x02 | .txn => 0x03 | .nvm => 0x04 | .dep => 0x05 | .ovm => 0x06
  | .pdm => 0x07 | .clk => 0x08 | .clu => 0x10 | .lpe => 0x11 | .ral => 0x12 | .thm => 0x13
  | .gov => 0x14 | .can => 0x15 | .canj => 0x16 | .twi => 0x17 | .lnk => 0x18 | .bay => 0x20
  | .mem => 0x21 | .que => 0x30

/-- Base offset (R21). -/
def PageClass.base : PageClass → Nat
  | .dev => 0x000000 | .tmb => 0x001000 | .txn => 0x002000 | .nvm => 0x003000 | .dep => 0x004000
  | .ovm => 0x005000 | .pdm => 0x006000 | .clk => 0x007000 | .clu => 0x100000 | .lpe => 0x180000
  | .ral => 0x200000 | .thm => 0x220000 | .gov => 0x240000 | .can => 0x260000 | .canj => 0x262000
  | .twi => 0x280000 | .lnk => 0x2A0000 | .bay => 0x300000 | .mem => 0x380000 | .que => 0x400000

/-- Number of pages (R21). -/
def PageClass.pages : PageClass → Nat
  | .clu | .lpe => 72
  | .ral | .mem => 12
  | .thm | .gov | .can | .canj | .twi | .lnk => 2
  | .bay => 56
  | .que => 1024
  | _ => 1

def allClasses : List PageClass :=
  [.dev, .tmb, .txn, .nvm, .dep, .ovm, .pdm, .clk, .clu, .lpe, .ral, .thm, .gov, .can, .canj, .twi, .lnk,
   .bay, .mem, .que]

/-- Pages of the whole device, with a copy in each half (R21, R22). -/
def PageClass.isGlobal : PageClass → Bool
  | .dev | .tmb | .txn | .nvm | .dep | .ovm | .pdm | .clk => true
  | _ => false

/-- The half of a page that is not global (R21). -/
def pageHalf (c : PageClass) (inst : Nat) : Half :=
  let b := match c with
    | .clu | .lpe => decide (36 ≤ inst)
    | .ral => decide (6 ≤ inst)
    | .bay => decide (28 ≤ inst)
    | .mem => inst == 1 || decide (6 ≤ inst ∧ inst ≤ 9) || inst == 11
    | .que => decide (512 ≤ inst)
    | _ => inst == 1
  if b then .b else .a

/-- A page: its class and instance. -/
abbrev PageId := PageClass × Nat

/-- BAR0 offset of a page (R21). -/
def pageBase (p : PageId) : Nat := p.1.base + p.2 * 0x1000

/-- The page that holds a BAR0 offset; none outside every page (R9, R21). -/
def pageAt (off : Nat) : Option PageId :=
  allClasses.findSome? fun c =>
    if c.base ≤ off ∧ off < c.base + c.pages * 0x1000 then some (c, (off - c.base) / 0x1000) else none

/-! ## Rails and clusters (R107) -/

/-- The rail index within the half of a cluster index within the half. -/
def railInHalf (k : Nat) : Nat :=
  if k < 28 then 0 else if k < 32 then 1 else k - 30

/-- RAL instance of a cluster. -/
def railOf (n : Nat) : Nat := n / 36 * 6 + railInHalf (n % 36)

/-- Clusters of a RAL instance, ascending. -/
def railClusters (r : Nat) : List Nat :=
  let base := r / 6 * 36
  match r % 6 with
  | 0 => (List.range 28).map (base + ·)
  | 1 => (List.range 4).map (base + 28 + ·)
  | k => [base + 30 + k]

/-- Sync group of a cluster (R107, R123). -/
def syncOf (n : Nat) : Nat := n / 36 * 2 + (if n % 36 < 28 then 0 else 1)

/-- Sync group of a rail. -/
def railSync (r : Nat) : Nat := r / 6 * 2 + (if r % 6 = 0 then 0 else 1)

/-- Clusters of a sync group. -/
def syncClusters (g : Nat) : List Nat := (List.range 72).filter (syncOf · == g)

/-- Domain part of a rail: 0-5 are PD1-PD6, 6 and 8 are PD7, 7 and 9 are PD8 of Halves A and B (R107, R84). -/
def railPart (r : Nat) : Nat :=
  let h := r / 6
  match r % 6 with
  | 0 => h | 1 => 2 + h | 2 => 4 + h | 3 => 6 + 2 * h | _ => 7 + 2 * h

/-- Rails of a part. -/
def partRails (p : Nat) : List Nat := (List.range 12).filter (railPart · == p)

/-- Clusters of a part, ascending. -/
def partClusters (p : Nat) : List Nat := (partRails p).flatMap railClusters

/-- The half of a part. -/
def partHalf (p : Nat) : Half :=
  if p < 6 then (if p % 2 = 0 then .a else .b) else if p < 8 then .a else .b

/-- The domain index (0 for PD1) of a part. -/
def partDomain (p : Nat) : Nat := if p < 8 then p else p - 2

/-- The parts of a domain index (R84). -/
def domainParts (d : Nat) : List Nat := if d < 6 then [d] else [d, d + 2]

def corePart (h : Half) : Nat := h.idx
def seamPart (h : Half) : Nat := 2 + h.idx
def memPart (h : Half) : Nat := 4 + h.idx
def linkPart (h : Half) : Nat := 6 + 2 * h.idx
def svcPart (h : Half) : Nat := 7 + 2 * h.idx

/-! ## Canary kinds (R329) -/

/-- Default classes of the kinds 0x00-0x7F, 0 NOTE to 3 HALT; reserved kinds are NOTE (R330). -/
def kindClass (k : Nat) : Nat :=
  if k ∈ [0x15, 0x17, 0x19, 0x2B, 0x2E, 0x3B, 0x3F, 0x46, 0x67, 0x69, 0x6C, 0x6D, 0x6E] then 3
  else if k ∈ [0x1B, 0x1C, 0x28, 0x29, 0x2A, 0x2C, 0x4A, 0x4B, 0x4D] then 2
  else if k ∈ [0x05, 0x06, 0x0C, 0x10, 0x11, 0x14, 0x16, 0x18, 0x1A, 0x1E, 0x1F, 0x21, 0x22, 0x24, 0x25,
    0x26, 0x2D, 0x2F, 0x30, 0x38, 0x39, 0x3A, 0x3C, 0x3E, 0x40, 0x45, 0x48, 0x4C, 0x5D, 0x64, 0x65,
    0x68, 0x6A, 0x72, 0x73, 0x74, 0x75, 0x78, 0x79] then 1
  else 0

/-- The kind is reserved (R329). -/
def kindReserved (k : Nat) : Bool :=
  k == 0 || decide (0x12 ≤ k ∧ k ≤ 0x13) || decide (0x31 ≤ k ∧ k ≤ 0x37) || decide (0x41 ≤ k ∧ k ≤ 0x43)
  || decide (0x4E ≤ k ∧ k ≤ 0x53) || decide (0x5E ≤ k ∧ k ≤ 0x63) || k == 0x6F
  || decide (0x76 ≤ k ∧ k ≤ 0x77) || decide (0x7A ≤ k)

/-- Default of KCLASSi (R330, R337). -/
def kclassReset (i : Nat) : Nat :=
  (List.range 8).foldl (fun acc j => acc + kindClass (8 * i + j) * 4 ^ j) 0

/-! ## Register rows -/

/-- How a register is accessed (R31). `own` registers have a command of their own or a mixed access. -/
inductive Acc where
  | rw | ro | wo | w1c | w1s | own
  deriving DecidableEq, Repr

/-- One line of a field table: `count` registers from `off` in steps of `stride`; `mask` are the implemented
bits (of [15:0] for a CP register); `reset` the word after cold reset. -/
structure RegRow where
  off    : Nat
  count  : Nat := 1
  stride : Nat := 4
  acc    : Acc
  cp     : Bool := false
  tx     : Bool := false
  mask   : Nat := 0xFFFFFFFF
  reset  : Nat → W32 := fun _ => 0#32

/-- A CP register's row. -/
def cpRow (off count : Nat) (acc : Acc) (tx : Bool) (mask : Nat) (reset : Nat → Nat) : RegRow :=
  { off, count, acc, cp := true, tx, mask, reset := fun i => cpWord (reset i) }

/-- A calibration word of a register, cut to its implemented bits. -/
def cal (p : PageId) (off mask : Nat) : W32 := Config.calWord (pageBase p + off) &&& w32 mask

/-- VCODE of TGT by rail within the half (R129). -/
def tgtReset (rail : Nat) : Nat := if rail = 0 then 240 else 320

/-- The field table of a page's body, in the spec's order. A line without a register's name (slot offset +0x1C of TXN) is a
reserved offset under R9, not an RO register (DEDUCED, LOG 60). -/
def bodyRows (p : PageId) : List RegRow :=
  let inst := p.2
  match p.1 with
  | .dev => [
    { off := 0x040, acc := .ro, reset := fun _ => 0x12160102#32 },
    { off := 0x044, count := 2, acc := .ro, reset := fun i => cal p (0x044 + 4 * i) 0xFFFFFFFF },
    cpRow 0x080 1 .own false 0xFFFF (fun _ => 0)]
  | .tmb => [
    { off := 0x040, acc := .ro }, { off := 0x044, acc := .ro }, { off := 0x048, acc := .ro },
    { off := 0x04C, acc := .rw, mask := 0x7F, reset := fun _ => 0xA#32 }]
  | .txn => [
    { off := 0x040, count := 5, stride := 0x20, acc := .own },
    { off := 0x044, count := 5, stride := 0x20, acc := .ro },
    { off := 0x048, count := 5, stride := 0x20, acc := .ro },
    { off := 0x04C, count := 5, stride := 0x20, acc := .rw, mask := 0xFFFF, reset := fun _ => 0x64#32 },
    { off := 0x050, count := 5, stride := 0x20, acc := .ro },
    { off := 0x054, count := 5, stride := 0x20, acc := .ro },
    { off := 0x058, count := 5, stride := 0x20, acc := .ro }]
  | .nvm => [
    { off := 0x040, acc := .own }, { off := 0x044, count := 5, acc := .ro }, { off := 0x058, acc := .own },
    { off := 0x05C, acc := .rw, mask := 0x17F }, { off := 0x800, count := 512, acc := .ro }]
  | .dep => [
    { off := 0x040, count := 3, acc := .ro },
    cpRow 0x080 12 .rw false 0x1FF (fun r => if r % 6 = 0 then 160 else 280),
    cpRow 0x0C0 12 .rw false 0x1FF (fun r => if r % 6 = 0 ∨ r % 6 = 2 then 440 else 400),
    cpRow 0x100 12 .rw false 0x1FFF (fun r => if r % 6 = 0 then 4480 else if r % 6 = 1 then 640 else 160),
    cpRow 0x140 1 .rw false 0x3FF (fun _ => 900),
    cpRow 0x144 1 .rw false 0xFF (fun _ => 0x70),
    cpRow 0x148 1 .rw false 0xFF (fun _ => 0xFF)]
  | .ovm => [
    { off := 0x040, acc := .ro }, { off := 0x044, acc := .own }, { off := 0x048, acc := .own },
    { off := 0x04C, acc := .ro, mask := 0x3FF, reset := fun _ => 0x64#32 },
    { off := 0x050, acc := .ro, mask := 1 }, { off := 0x054, acc := .rw, mask := 3 },
    { off := 0x058, acc := .ro }, { off := 0x060, count := 12, acc := .ro },
    { off := 0x400, count := 22, acc := .ro }]
  | .pdm => [
    cpRow 0x040 8 .rw true 0x7 (fun _ => 0), { off := 0x060, count := 8, acc := .ro },
    { off := 0x080, acc := .rw, mask := 0xFF, reset := fun _ => 0xFF#32 },
    cpRow 0x084 1 .rw true 0xFFFF (fun _ => 0),
    { off := 0x088, acc := .rw, mask := 0xFFFFFF01, reset := fun _ => 0x02583C00#32 },
    { off := 0x08C, acc := .rw, mask := 7, reset := fun _ => 7#32 },
    { off := 0x090, acc := .w1c, mask := 0xFF },
    cpRow 0x0A0 8 .ro false 0x1FF (fun n => if n < 2 then 160 else 280)]
  | .clk => [
    { off := 0x040, acc := .ro }, { off := 0x044, acc := .ro },
    cpRow 0x060 4 .rw true 0xFFFF (fun _ => 0x3C50), { off := 0x070, acc := .ro }]
  | .clu =>
    let rail := railInHalf (inst % 36)
    [ cpRow 0x040 1 .rw true 0x1FF (fun _ => tgtReset rail),
      cpRow 0x044 1 .rw true 0x7F (fun _ => if rail = 0 then 16 else 0),
      cpRow 0x048 1 .rw true 0x3F (fun _ => 24),
      cpRow 0x04C 1 .rw true 0xFFFF (fun _ => 20 * 256 + 32),
      cpRow 0x050 1 .rw true 0xFF1F (fun _ => 127 * 256 + 16 + (if rail = 0 then 4 else 2)),
      { off := 0x054, acc := .rw, tx := true, mask := 0x1FF, reset := fun _ => 0x114#32 },
      cpRow 0x058 1 .rw true 0x1FF (fun _ => 2 + 16 * 8 + (if rail = 1 then 0 else 256)),
      cpRow 0x05C 1 .rw true 0x3 (fun _ => if rail < 2 then 1 else 0),
      cpRow 0x060 1 .rw true 0xFF (fun _ => 0),
      cpRow 0x064 1 .rw true 0x3F3F (fun _ => 0x1018),
      { off := 0x068, acc := .ro }, { off := 0x080, count := 5, acc := .ro },
      { off := 0x094, acc := .w1c, mask := 0xE }, { off := 0x098, count := 2, acc := .ro },
      { off := 0x200, count := 8, stride := 0x20, acc := .ro },
      { off := 0x204, count := 8, stride := 0x20, acc := .ro },
      { off := 0x208, count := 8, stride := 0x20, acc := .ro },
      { off := 0x20C, count := 8, stride := 0x20, acc := .ro }]
  | .lpe =>
    let rail := railInHalf (inst % 36)
    let calRow (off mask calOff : Nat) : RegRow :=
      { off, count := 3, stride := 0x10, acc := .rw, tx := true, mask,
        reset := fun s => cal p (calOff + 0x10 * s) mask }
    [ cpRow 0x040 1 .rw true 0x3FF (fun _ => if rail = 0 then 0x101 else 0x100),
      cpRow 0x044 1 .rw true 0x7FF (fun _ => 0x7FF),
      { off := 0x048, acc := .rw, tx := true, mask := 0x03FF03FF, reset := fun _ => cal p 0x048 0x03FF03FF },
      { off := 0x04C, acc := .rw, tx := true, mask := 0x1FF, reset := fun _ => 0x128#32 },
      { off := 0x050, acc := .rw, tx := true, mask := 0xFFFF07 },
      { off := 0x054, acc := .rw, tx := true, mask := 0x1FFFFF, reset := fun _ => 0x2710#32 },
      calRow 0x080 0x3FFFF 0x080, calRow 0x084 0x3FFFF 0x084, calRow 0x088 0x3FFFF 0x088, calRow 0x08C 0x3F 0x08C,
      calRow 0x0C0 0xFFFFFFFF 0x0C0, calRow 0x0C4 0xFFFFFFFF 0x0C4, calRow 0x0C8 0xFFFFFFFF 0x0C8,
      calRow 0x180 0x3FFFF 0x080, calRow 0x184 0x3FFFF 0x084, calRow 0x188 0x3FFFF 0x088, calRow 0x18C 0x3F 0x08C,
      calRow 0x1C0 0xFFFFFFFF 0x0C0, calRow 0x1C4 0xFFFFFFFF 0x0C4, calRow 0x1C8 0xFFFFFFFF 0x0C8,
      { off := 0x100, count := 7, acc := .ro }, { off := 0x140, acc := .own, mask := 0xFF18 },
      { off := 0x144, acc := .ro }, { off := 0x148, acc := .rw, mask := 0xFFF },
      { off := 0x14C, count := 6, acc := .ro }]
  | .ral =>
    let core := inst % 6 = 0
    [ cpRow 0x040 1 .rw true 0x1FF (fun _ => 320),
      cpRow 0x044 1 .rw true 1 (fun _ => if core then 1 else 0),
      cpRow 0x048 1 .rw true 0x3F (fun _ => 15),
      cpRow 0x04C 1 .rw true 0x7F (fun _ => if core then 16 else 0),
      { off := 0x050, acc := .rw, tx := true, mask := 0xFF3F, reset := fun _ => 0x320C#32 },
      { off := 0x054, acc := .rw, tx := true, mask := 0xF, reset := fun _ => if core then 15#32 else 1#32 },
      cpRow 0x058 1 .rw true 3 (fun _ => 3),
      { off := 0x060, count := 10, acc := .rw, tx := true, reset := fun i => cal p (0x060 + 4 * i) 0xFFFFFFFF },
      { off := 0x088, count := 2, acc := .rw, tx := true, mask := 0 },
      cpRow 0x0A0 1 .rw true 7 (fun _ => if core then 3 else 0),
      cpRow 0x0A4 1 .rw true 0x1FF (fun _ => 288),
      cpRow 0x0A8 1 .rw true 0x1FF (fun _ => 400),
      { off := 0x0AC, acc := .rw, tx := true, mask := 0xF, reset := fun _ => 4#32 },
      { off := 0x0C0, acc := .ro }, { off := 0x0C4, acc := .w1c, mask := 0xE }, { off := 0x0C8, acc := .ro },
      { off := 0x0D0, count := 4, acc := .ro }, { off := 0x100, count := 28, acc := .ro }]
  | .thm =>
    let thr (t v : Nat) : RegRow := cpRow (0x040 + 0x10 * t) 3 .rw true 0xFF (fun _ => v)
    [ thr 0 0x00, thr 1 0x05, thr 2 0x5F, thr 3 0x64, thr 4 0x70,
      { off := 0x090, acc := .rw, tx := true, mask := 0xF, reset := fun _ => 3#32 },
      { off := 0x094, acc := .ro }, { off := 0x0A0, acc := .ro }, { off := 0x0A8, count := 2, acc := .ro },
      { off := 0x100, count := 60, acc := .ro }]
  | .gov =>
    let mirror : Acc := if inst = 0 then .rw else .ro
    [ cpRow 0x040 2 .rw true 0x3F (fun _ => 8), cpRow 0x048 1 .rw true 0x3F3F (fun _ => 0x0808),
      cpRow 0x04C 1 .rw true 0x3FFF (fun _ => 0x1042), cpRow 0x050 1 .rw true 0x1FF (fun _ => 0x100),
      cpRow 0x054 1 .rw true 0x1FF (fun _ => 0x40), cpRow 0x058 1 mirror (inst == 0) 0x1FF (fun _ => 0x80),
      cpRow 0x05C 1 mirror (inst == 0) 0x3FF (fun _ => 0x334), cpRow 0x060 1 mirror (inst == 0) 0x3FF (fun _ => 0x28A),
      cpRow 0x064 1 .rw true 0x1F (fun _ => 24), { off := 0x080, count := 6, acc := .ro },
      { off := 0x0A0, count := 36, acc := .ro }, { off := 0x140, count := 28, acc := .ro },
      { off := 0x200, count := 25, acc := .ro, cp := true,
        reset := fun i => cpWord (low16 (cal p (0x200 + 4 * i) 0x1FF)) }]
  | .can => [
    { off := 0x040, acc := .own }, { off := 0x044, count := 7, acc := .ro },
    { off := 0x060, acc := .own, mask := 0xFF05 },
    cpRow 0x064 1 (if inst = 0 then .rw else .ro) (inst == 0) 0x7FFF (fun _ => 5),
    { off := 0x068, acc := .ro }, { off := 0x070, acc := .own },
    cpRow 0x080 16 .rw true 0xFFFF kclassReset, { off := 0x200, count := 128, acc := .ro },
    { off := 0x400, count := 256, acc := .ro }]
  | .canj => [
    { off := 0x040, acc := .rw, mask := 0x01007FFF }, { off := 0x044, acc := .rw, mask := 0xFF },
    { off := 0x048, acc := .own }, { off := 0x04C, acc := .ro }]
  | .twi =>
    if inst = 0 then [
      { off := 0x040, acc := .rw, mask := 0xF7F, reset := fun _ => 0x128#32 },
      { off := 0x044, acc := .rw, mask := 0x7F7F, reset := fun _ => 0x5958#32 },
      { off := 0x048, acc := .rw, mask := 0x7F7F, reset := fun _ => 0x5B5A#32 },
      { off := 0x04C, acc := .rw, mask := 0x7F7F, reset := fun _ => 0x0358#32 },
      { off := 0x060, count := 4, acc := .ro }, { off := 0x070, acc := .ro }]
    else [
      { off := 0x040, acc := .rw, mask := 0xFF77, reset := fun _ => 0x0A25#32 },
      { off := 0x044, count := 4, acc := .own }, { off := 0x054, count := 3, acc := .ro },
      { off := 0x060, count := 8, acc := .ro }]
  | .lnk => [
    { off := 0x040, count := 5, acc := .ro }, { off := 0x054, acc := .rw, mask := 0x7F, reset := fun _ => 0x38#32 },
    { off := 0x058, count := 2, acc := .ro }, { off := 0x060, count := 64, acc := .ro }]
  | .bay => [
    { off := 0x040, acc := .own, mask := 1 }, { off := 0x044, count := 8, acc := .ro },
    { off := 0x064, acc := .rw, mask := 0xFFFF, reset := fun _ => 0x3E8#32 },
    { off := 0x068, acc := .rw, mask := 0xFFFF, reset := fun _ => 0x64#32 }, { off := 0x06C, acc := .ro }]
  | .mem =>
    if inst < 2 then [
      { off := 0x040, count := 4, acc := .ro }, { off := 0x050, count := 3, acc := .ro },
      { off := 0x05C, acc := .rw, mask := 0xFF, reset := fun _ => 0x18#32 }]
    else if inst < 10 then [{ off := 0x040, count := 5, acc := .ro }]
    else [
      { off := 0x040, count := 16, acc := .ro },
      { off := 0x080, acc := .rw, mask := 0xFFFF, reset := fun _ => 0x1400#32 }]
  | .que => [
    { off := 0x040, acc := .rw, mask := 0x01FF0007, reset := fun _ => 0x00400002#32 },
    { off := 0x044, acc := .rw, mask := 0xFFFFF000 }, { off := 0x048, acc := .rw },
    { off := 0x04C, acc := .rw, mask := 0xF }, { off := 0x050, acc := .own }, { off := 0x054, acc := .own },
    { off := 0x058, acc := .rw, mask := 0xFFFFFFC0 }, { off := 0x05C, acc := .rw }, { off := 0x060, acc := .rw },
    { off := 0x064, acc := .own }, { off := 0x068, count := 6, acc := .ro }]

/-- POWN default of a page (R26). -/
def pownReset (p : PageId) : Nat :=
  match p.1 with
  | .dev | .txn | .can => 0b11111
  | .nvm | .ovm | .pdm | .clu | .lpe | .ral | .que => 0b01111
  | .clk | .thm | .gov | .lnk | .bay | .mem => 0b01100
  | .twi => if p.2 = 0 then 0b11100 else 0b01100
  | .tmb | .dep | .canj => 0b01000

/-- The CLASSERR bits that the chapter of a class defines; the others of [15:0] are reserved (R8, R23). -/
def classErrMask (p : PageId) : Nat :=
  match p.1 with
  | .dev | .thm => 0x1
  | .clu => 0x1FF
  | .lpe | .gov | .bay | .can => 0x7
  | .que => 0x3F
  | .twi => if p.2 = 0 then 0x7 else 0xF
  | .lnk => 0x1F
  | _ => 0

/-- The header of every page (R23). -/
def headerRows (p : PageId) : List RegRow := [
  { off := 0x000, count := 4, acc := .ro },
  { off := 0x010, acc := .own, mask := 3, reset := fun _ => 1#32 },
  { off := 0x014, acc := .w1c, mask := 0xFF0000 + classErrMask p },
  { off := 0x018, acc := .rw, mask := 0xFF0000 + classErrMask p },
  { off := 0x01C, acc := .own, mask := 0x17, reset := fun _ => w32 (pownReset p) },
  { off := 0x020, count := 2, acc := .ro }]

/-- The row of a page offset and the register's index in it; none for a reserved offset (R9). -/
def findRow (p : PageId) (off : Nat) : Option (RegRow × Nat) :=
  (if off < 0x40 then headerRows p else bodyRows p).findSome? fun r =>
    let i := (off - r.off) / r.stride
    if r.off ≤ off ∧ (off - r.off) % r.stride = 0 ∧ i < r.count then some (r, i) else none

/-- The word a register reads as after cold reset, by register key (copy x 2^24 + offset, R22). -/
def regReset (key : Nat) : W32 :=
  let off := key % 2 ^ 24
  match pageAt off with
  | none => 0#32
  | some p => match findRow p (off % 0x1000) with
    | none => 0#32
    | some (r, i) => r.reset i

/-- The whole body is held in the always-on island: stated for CLU, LPE, RAL, THM, CAN and LNK; the other pages
that name no switched domain are read the same way (DEDUCED, LOG 10). -/
def aonBody : PageClass → Bool
  | .bay | .mem | .que => false
  | _ => true

/-- The page has a checker with an inject control (R335, DEDUCED, LOG 10). -/
def hasInject (p : PageId) : Bool :=
  match p.1 with
  | .clu | .lpe | .bay | .lnk | .can | .dep => true
  | .mem => decide (p.2 < 10)
  | _ => false

/-- PCAP (R23, R129, R156, R202, R233, R270). -/
def pcap (p : PageId) : W32 :=
  let rows := bodyRows p
  let cls : Nat := match p.1 with
    | .clu => 8 + railInHalf (p.2 % 36) * 16
    | .lpe => 1 + 3 * 2
    | .gov => 24
    | .bay => 2 + 2 * 4
    | .que => if p.2 % 512 < 8 then 1 else 0
    | _ => 0
  w32 (cls * 0x10000 + flag (aonBody p.1) 3 + flag (hasInject p) 2 + flag (rows.any (·.cp)) 1
    + flag (rows.any (·.tx)) 0)

end Sys2Proof.Machine
end

