-- ==== Sys2Proof/Machine/State.lean ====
section
/-! DEFINITION. The state of the SHX-1216 as plain data, and its value at reset. Repeated units and registers are
held as tables: a canonical list of (index, value), indices strictly rising, no entry equal to what the unit reads as at reset.
`tabGet`, `tabSet`, `tmap` (Machine/Ops.lean) and `filter` are what reads and writes a table. -/

namespace Sys2Proof.Machine

/-- A sparse table of values by index. -/
abbrev Tab (α : Type) := List (Nat × α)

/-! ## Time and pins -/

/-- The two timebases (R53), the slew of Half B's (R55) and the masters' TBHI snapshots (R54). -/
structure Time where
  tbA       : W64 := 0#64
  tbB       : W64 := 0#64
  /-- Counts Half B's timebase has still to add (positive) or omit. -/
  slew      : Int := 0
  /-- AONCLK cycles since the last slewed count. -/
  pace      : Nat := 0
  /-- Half A's timebase at the last exchange, and at the last that succeeded (R55, R56). -/
  lastExch  : W64 := 0#64
  lastAlign : W64 := 0#64
  snapshot  : Tab W32 := []
  /-- A half has counted MGMT_CLK since PORST_N (R46). -/
  counted   : Tab Bool := []
  /-- The model's own counter for `Config.freeWord`; not the spec's (DESIGN CHOICE, LOG 7). -/
  freeCount : Nat := 0
  deriving DecidableEq, Repr

/-- Board pins and what the device drives (R62-R75). -/
structure Pins where
  porstLow   : Bool := true
  persthLow  : Tab Bool := []
  addrSel    : BitVec 2 := 0#2
  twiVsel    : Bool := false
  vinReleased : Tab Bool := []
  tripLatch  : Bool := false
  deriving DecidableEq, Repr

/-! ## Transactions -/

/-- Phases of a transaction slot (R38); `checked` and `gone` are COMMITTING after B1 and after GO (R40). -/
inductive Phase where
  | idle | open | committing | checked | gone | done | aborted
  deriving DecidableEq, Repr

/-- One transaction slot (R37-R44). -/
structure TxnSlot where
  phase    : Phase := .idle
  tag      : W16 := 0#16
  reason   : BitVec 4 := 0#4
  /-- Staged words by BAR0 offset, in rising order (R38). -/
  staged   : Tab W32 := []
  /-- Claimed pages by page key with the PSEQ recorded at the claim (R39). -/
  claims   : Tab W32 := []
  home     : Half := .a
  opened   : W64 := 0#64
  limit    : Nat := 0
  accepted : W64 := 0#64
  boundary : W64 := 0#64
  ctime    : W64 := 0#64
  fail     : W32 := 0#32
  /-- The checks of a spanning transaction at B1 failed with this reason, on which GO decides; 0 when clear (R40). -/
  found    : BitVec 4 := 0#4
  deriving DecidableEq, Repr

structure Txn where
  slots : Tab TxnSlot := []
  /-- Accesses held behind a commit window, in arrival order: a direct write to a locked page (R42), and what its master
  sends after it (R30). -/
  held  : List Access := []
  /-- The word the last read of each master returned (R31). -/
  readData : Tab W32 := []
  deriving DecidableEq, Repr

/-! ## Power domains -/

/-- The states of DSTATn (R86). -/
inductive DState where
  | off | retain | on | up | down | abandon | inhibited | tripped | resetting
  deriving DecidableEq, Repr

/-- One domain of one half: parts 0-5 are PD1-PD6, 6 and 7 are PD7 and PD8 in Half A, 8 and 9 in Half B (R84). -/
structure Part where
  st     : DState := .off
  /-- The step in progress, 1-7; steps of a power-down count the same numbers downward (R89). -/
  step   : Nat := 0
  fail   : Byte := 0#8
  /-- A power-down that ends in RETAIN (R89). -/
  toRetain : Bool := false
  /-- A power-up that leaves RETAIN. -/
  fromRetain : Bool := false
  deriving DecidableEq, Repr

structure Power where
  parts   : Tab Part := []
  /-- Parts Deputy has still to power up at boot, wake or the end of a cold inhibit (R91, R94). -/
  plan    : List Nat := []
  /-- Parts whose power-up Deputy has begun from the plan, until they have settled. -/
  group   : List Nat := []
  /-- PD3 and PD4 have both been ON since boot, so that queues get credit (R93). -/
  creditOpen : Bool := false
  /-- PD3, PD4 or PD8 failed at boot: no control queue is served (R91). -/
  bootHalt : Bool := false
  stage   : Nat := 0
  dormant : Bool := false
  selfwarm : Tab Bool := []
  /-- The instant self-warm began, by half (R95). -/
  selfwarmAt : Tab W64 := []
  /-- Self-warm has run out of time, and does not start again before the inhibit clears (R95). -/
  warmDone : Tab Bool := []
  /-- MEM power-up: converters of the part already confirmed, 0-3 (R88). -/
  converters : Tab Nat := []
  /-- Retirement record (R177, R378): cells by 8 x cluster + cell, clusters, bays, service cores. -/
  retiredCells    : List Nat := []
  retiredClusters : List Nat := []
  retiredBays     : List Nat := []
  isolatedCores   : List Nat := []
  deriving DecidableEq, Repr

/-! ## Regulation -/

/-- States of a cell (CST[2:0], R129). -/
inductive CellState where
  | idle | active | disabled | latched | stopped
  deriving DecidableEq, Repr

structure Cell where
  st      : CellState := .stopped
  reason  : BitVec 4 := 0#4
  current : MilliAmp := 0
  /-- Trim in 1/(4,096 x 840) of a 0.05-point step: exact for every count of active cells (R121). -/
  trim    : Int := 0
  clamped : Nat := 0
  inLimit : Bool := false
  /-- Consecutive limited periods and the last of them (R163). -/
  limitRun : Nat := 0
  lastLimit : Option Nat := none
  /-- The period of the last hard-short event (R165). -/
  lastHard : Option Nat := none
  /-- The period of the 64th consecutive limited one, once reached (R163). -/
  reached64 : Option Nat := none
  limits  : W16 := 0#16
  hards   : W16 := 0#16
  deriving DecidableEq, Repr

/-- Status of the commands of a cluster or a rail (SLST, RSLST; R114-R116). -/
structure Slew where
  tag   : W16 := 0#16
  supCount : Byte := 0#8
  late  : Bool := false
  superseded : Bool := false
  done  : Bool := false
  busy  : Bool := false
  deriving DecidableEq, Repr

/-- Protection state of a cluster (file 08). -/
structure Protect where
  ovRun     : Nat := 0
  uvRun     : Nat := 0
  senseRun1 : Nat := 0
  senseRun2 : Nat := 0
  brakeRun  : Nat := 0
  brake     : Bool := false
  /-- The latest sample's error allows brake to end (R159). -/
  brakeEase : Bool := false
  brakeAge  : Nat := 0
  /-- Base samples that must still pass before brake may enter again (R159). -/
  brakeHold : Nat := 0
  crowbar   : Bool := false
  /-- The over-voltage in progress is a repeat (R170). -/
  ovRepeat  : Bool := false
  lastOv    : Option W64 := none
  uv        : Bool := false
  fallback  : Bool := false
  railShort : Bool := false
  shortAt   : Option W64 := none
  brakeCount : Byte := 0#8
  ovCount   : Byte := 0#8
  deriving DecidableEq, Repr

/-- What a cluster is doing beside EN (R108). -/
inductive ClusterState where
  | ready | active | isolated | retired
  deriving DecidableEq, Repr

structure Cluster where
  st      : ClusterState := .ready
  cells   : Tab Cell := []
  anchor  : Option Nat := none
  /-- Rotations so far modulo 8: cell c holds slot (c - rot) mod 8 (R122; DESIGN CHOICE, LOG 12). -/
  rot     : Nat := 0
  /-- Switching periods since the last rotation fell due, up to the latest inner sample; a rotation that waits; and an active
  count changed since that sample (R122). -/
  rotAge  : Int := 0
  rotDue  : Bool := false
  changed : Bool := false
  /-- The cluster has started, or its cells have changed, since its reset: its status registers show it (DESIGN CHOICE, LOG 65). -/
  live    : Bool := false
  /-- The instantaneous reference, exact (R113). -/
  vref    : Volt := 0
  target  : Volt := 0
  /-- The source in force (R111). -/
  source  : BitVec 2 := 0#2
  /-- The latest target with load line, offset and injection (R112, R131). -/
  vtarget : Volt := 0
  /-- The offset last received from the outer loop (R143), in 1/256 of a VCODE step. -/
  offset  : Int := 0
  /-- Slew rate of a sequencing step in 0.625 mV/µs; none: the rail's SLEW (R87, R89). -/
  seqRate : Option Nat := none
  /-- The cluster's domain is sequencing (R117, R160, R168). -/
  seq     : Bool := false
  slew    : Slew := {}
  settle  : Nat := 0
  /-- Samples with the reference at its target (R114). -/
  reached : Nat := 0
  /-- Consecutive samples with the remote sense within 25 mV of the target (R87). -/
  near    : Nat := 0
  remote  : Volt := 0
  loc     : Volt := 0
  vin     : Volt := 0
  current : MilliAmp := 0
  duty    : Nat := 0
  /-- The duty computed on the latest sample, applied on the next (R132). -/
  dutyNext : Nat := 0
  /-- Sum of the cluster current over the outer sample, and its samples (R118). -/
  sumI    : Int := 0
  samples : Nat := 0
  /-- Outer samples since a cell was added (R118). -/
  sinceAdd : Nat := 16
  prot    : Protect := {}
  plaus   : Nat := 0
  /-- Base samples since the active count, a preset or a rotation changed (R153). -/
  sinceChange : Nat := 16
  deriving DecidableEq, Repr

/-- One loop engine's own state (file 07). -/
structure Engine where
  /-- States of sections 0-2: sign-extended mantissas or binary32 bits (STATEs, R156). -/
  s0      : W32 := 0#32
  s1      : W32 := 0#32
  s2      : W32 := 0#32
  /-- A preset to this duty waits for the next computing sample (R151). -/
  preset  : Option Nat := none
  /-- The duty held by MDUTY code 2,047 (R150). -/
  hold    : Nat := 0
  windup  : Bool := false
  saturated : W16 := 0#16
  windups : W16 := 0#16
  /-- Base samples since the last saturation (R137). -/
  sinceSat : Nat := 4096
  err     : Int := 0
  residual : Int := 0
  /-- Position in the group of four base samples (R131). -/
  base    : Nat := 0
  /-- Sum of the signal of the latest computing sample, for capture channel 0 (R155). -/
  inj     : Int := 0
  phase   : W32 := 0#32
  prbs    : BitVec 11 := 0x7FF#11
  chips   : Nat := 0
  injecting : Bool := false
  capDenied : Bool := false
  capMode : Bool := false
  deriving DecidableEq, Repr

/-- States of a capture (CAPST, R156). -/
inductive CapState where
  | idle | armed | running | full
  deriving DecidableEq, Repr

/-- One captured sample: the four channels of R155. -/
structure CapSample where
  c0 : W32
  c1 : W32
  c2 : W32
  c3 : W32
  deriving DecidableEq, Repr

/-- The capture buffer of a half (R155). -/
structure Capture where
  owner   : Option Nat := none
  st      : CapState := .idle
  samples : List CapSample := []
  skip    : Nat := 0
  t0      : W64 := 0#64
  /-- Canary has received a report of the armed engine's CLU or LPE page (R155). -/
  seen    : Bool := false
  deriving DecidableEq, Repr

/-- The FOLLOW path of a rail (R145-R149). -/
structure Follow where
  /-- Latest mapped value and filter value, in 2^-15 VCODE and 2^-30 VCODE. -/
  mapped  : Int := 0
  filter  : Int := 0
  code    : Nat := 0
  holding : Bool := false
  valid   : Nat := 0
  invalid : Nat := 0
  /-- The last 16 valid periods, newest first, in 250 ps. -/
  periods : List Nat := []
  /-- A source has been selected and not yet measured (R149). -/
  selecting : Bool := false
  /-- The instants of that selection and of the latest edge (R149). -/
  since   : W64 := 0#64
  lastEdge : W64 := 0#64
  deriving DecidableEq, Repr

structure Rail where
  s0     : W32 := 0#32
  s1     : W32 := 0#32
  s2     : W32 := 0#32
  u      : W32 := 0#32
  /-- Share terms q_j, binary32 (R143). -/
  share  : Tab W32 := []
  /-- Offsets o_j, in 1/256 VCODE (R143). -/
  offs   : Tab Int := []
  sense  : Tab Volt := []
  senseOut : Tab Nat := []
  senseIn  : Tab Nat := []
  senseBad : Tab Bool := []
  lost   : Bool := false
  slew   : Slew := {}
  follow : Follow := {}
  current : MilliAmp := 0
  /-- Sum of the rail's cluster powers and the outer samples it covers (R199). -/
  power  : Int := 0
  powerN : Nat := 0
  shutDown : Bool := false
  /-- The rail has been sampled since its reset: its status registers show it (DESIGN CHOICE, LOG 65). -/
  live   : Bool := false
  deriving DecidableEq, Repr

/-- States of SYNCST (R128). -/
inductive SyncState where
  | free | acquiring | locked | gliding
  deriving DecidableEq, Repr

structure SyncGroup where
  st     : SyncState := .free
  /-- Frequency in force in Hz (R123); 100 MHz at reset. -/
  freq   : Nat := 100000000
  /-- Spread-spectrum modulation is running (R126). -/
  spread : Bool := false
  deriving DecidableEq, Repr

structure Regulation where
  clusters : Tab Cluster := []
  engines  : Tab Engine := []
  captures : Tab Capture := []
  rails    : Tab Rail := []
  syncs    : Tab SyncGroup := []
  deriving DecidableEq, Repr

/-! ## Governor and heat -/

/-- A spender's level and what it waits for (R182-R188); levels and pools in units of 0.5 mA. -/
structure Spender where
  pool    : Nat := 0
  level   : Nat := 0
  /-- Level that a waiting unit needs (R185, R187). -/
  need    : Option Nat := none
  /-- A lull toward this level, and AONCLK cycles since it began (R188). -/
  lull    : Option (Nat × Nat) := none
  /-- Budget B in force (R186). -/
  budget  : Nat := 0
  kcor    : Nat := 64
  /-- Sums over the elapsed millisecond (R184). -/
  sumH    : Nat := 0
  sumI    : Int := 0
  cycles  : Nat := 0
  samplesI : Nat := 0
  deriving DecidableEq, Repr

structure Governor where
  bfrac    : Nat := 256
  minimum  : Bool := false
  safe     : Bool := false
  powerCap : Nat := 24
  thermCap : Nat := 24
  senseCap : Nat := 24
  /-- The core clock code that a CORE cluster in fallback does not let the arbiter exceed: the frequency in force when the fallback
  began (R174); the sense cap takes it at a 1 ms boundary (R190). -/
  senseHeld : Nat := 24
  fT       : Nat := 24
  active   : Nat := 0
  locking  : Option Nat := none
  waiting  : Option Nat := none
  /-- The locked frequency waits for SLEW_DONE (R191). -/
  waitSlew : Option Nat := none
  pong     : Bool := false
  supCount : Byte := 0#8
  retry    : Bool := false
  frozen   : Bool := false
  spenders : Tab Spender := []
  bins     : List Nat := []
  bin      : Nat := 0
  otherBin : Option Nat := none
  fast     : Nat := 0
  slow     : Nat := 0
  overLimit : Bool := false
  /-- 1 ms boundaries with the thermal cap at 400 MHz and the condition set (R197). -/
  hotAt400 : Nat := 0
  /-- BFRAC taken away by throttling and not yet given back (R197). -/
  throttled : Nat := 0
  deriving DecidableEq, Repr

structure Sensor where
  reading : Int := 0
  count   : Nat := 0
  scan    : Byte := 0#8
  invalid : Bool := false
  bad     : Nat := 0
  good    : Nat := 0
  deriving DecidableEq, Repr

structure Thermal where
  sensors : Tab Sensor := []
  scans   : W32 := 0#32
  /-- THOT_WARN, THOT_THROTTLE and COLD_WARN, a bit per sensor group (R197). -/
  warn    : BitVec 3 := 0#3
  throttle : BitVec 3 := 0#3
  coldWarn : BitVec 3 := 0#3
  inhibit : Bool := false
  inhibitRun : Nat := 0
  hottest : Nat := 0
  deriving DecidableEq, Repr

/-! ## Bays, memory, lodes -/

/-- A tile: 4,096 bytes (R208). -/
abbrev Tile := List Byte

structure Bay where
  slot     : Option Nat := none
  prog     : Nat := 0
  op       : Nat := 0
  isolated : Bool := false
  retired  : Bool := false
  /-- The program's ops of the step are all retired (R215). -/
  done     : Bool := false
  /-- The op at `op` has fired, and these tiles of its result are still to be written (R213). -/
  firing   : Bool := false
  outTiles : List Tile := []
  /-- The Canary kind for which the bay left service; 0 while it serves (R376). -/
  cause    : Nat := 0
  steps    : W32 := 0#32
  ops      : W32 := 0#32
  waitD    : W32 := 0#32
  waitS    : W32 := 0#32
  waitP    : W32 := 0#32
  nulls    : W32 := 0#32
  throt    : W32 := 0#32
  corrected : W16 := 0#16
  uncorrect : W16 := 0#16
  /-- The instant the bay last retired an op or began a step (R232). -/
  retiredAt : W64 := 0#64
  buffer   : List Host.Cell := []
  deriving DecidableEq, Repr

/-- One stream of a lode's tally graph with its counters (R213, R220). -/
structure Stream where
  producer : W16 := 0#16
  consumer : W16 := 0#16
  depth    : Nat := 0
  cross    : Bool := false
  perStep  : Nat := 0
  tensor   : W32 := 0xFFFFFFFF#32
  space    : Nat := 0
  data     : Nat := 0
  /-- Tiles a producer has begun to write and not finished. -/
  flight   : Nat := 0
  /-- Tiles written and not yet begun to be consumed, oldest first. -/
  tiles    : List Tile := []
  /-- Tally messages under way (R213). -/
  spaceMsgs : Nat := 0
  dataMsgs  : Nat := 0
  /-- Tiles a tile mover has begun in this step. -/
  begun    : Nat := 0
  /-- Tiles that crossed the crosscut and wait for a tile mover of the consumer's half, oldest first (R212). -/
  relay    : List Tile := []
  /-- The instant of the latest tally movement, on the timebase of the consumer's half (R216). -/
  moved    : W64 := 0#64
  deriving DecidableEq, Repr

/-- An op word of a bay program (R222). -/
structure OpWord where
  cls    : W16
  engine : Byte
  last   : Bool
  a      : W16
  b      : W16
  out    : W16
  acc    : W16
  param  : W32
  deriving DecidableEq, Repr

/-- A bay program: its half and its ops (R222). -/
structure Program where
  half : Half
  ops  : List OpWord
  /-- The BAY instance that runs it. -/
  bay  : Option Nat := none
  deriving DecidableEq, Repr

/-- A tensor of a lode and where placement put it (R218, R226). -/
structure Tensor where
  ident  : W32
  cls    : Nat
  half   : Half
  heat   : Nat
  tiles  : Nat
  reads  : Nat
  format : Nat
  offset : Nat
  inSeam : Bool := false
  deriving DecidableEq, Repr

inductive SlotState where
  | empty | loading | placing | resident | unloading
  deriving DecidableEq, Repr

/-- Who waits for an answer: the queue, and the sequence or tag the STATUS carries. -/
structure Asker where
  queue : Nat
  seq   : W32
  /-- Padded length of the packet, whose credit the answer frees (R271). -/
  padded : Nat
  /-- The lode field of the answer's header. -/
  lode   : W16 := 0xFFFF#16
  deriving DecidableEq, Repr

/-- Admission order state of a lode (R281). -/
structure Order where
  lastClass : Nat := 3
  lastQueue : Tab Nat := []
  classDef  : Tab Nat := []
  queueDef  : Tab Nat := []
  deriving DecidableEq, Repr

/-- A row of a step's batch: a request, and the tokens it takes in the step (R278). -/
structure BatchRow where
  queue  : Nat
  tag    : W32
  tokens : Nat
  deriving DecidableEq, Repr

structure Lode where
  st       : SlotState := .empty
  halves   : List Half := []
  size     : Nat := 0
  image    : List Host.Cell := []
  stepNs   : Nat := 0
  ctxKiB   : Nat := 0
  vocab    : Nat := 0
  ctxCap   : Nat := 0
  tensors  : List Tensor := []
  streams  : Tab Stream := []
  programs : Tab Program := []
  costs    : Tab Nat := []
  /-- DRAM reserved on each half, in bytes, and seam tiles placed on each half. -/
  dram     : Tab Nat := []
  seam     : Tab Nat := []
  /-- Results of placement waiting for LODE_PLACED, and who is answered. -/
  asker    : Option Asker := none
  demoted  : Nat := 0
  derate   : Nat := 0
  stepping : Bool := false
  /-- The step in progress repeats an abandoned one (R376). -/
  repeating : Bool := false
  /-- An UNLOAD that waits for placement to end (R231). -/
  unloadAsker : Option Asker := none
  /-- The batch of the step in progress (R278). -/
  rows     : List BatchRow := []
  /-- Tokens sampled in the step, by batch row; none when every logit was a NaN (R222, R284). -/
  sampled  : List (Nat × Option W32) := []
  order    : Order := {}
  /-- Tile movers in service at the start of the step, by half (R212, R232). -/
  movers   : Tab (List Nat) := []
  /-- The slot's record in the tally and plan reserve fails its CRC-32C (R313). -/
  badRecord : Bool := false
  /-- Tiles of a DRAM context that tile movers have still to carry in the step, by batch row (R229). -/
  carry    : Tab Nat := []
  deriving DecidableEq, Repr

structure Mover where
  isolated : Bool := false
  /-- The stream being moved: lode slot and stream index; an index of 0x10000 + r is the context of batch row r (R229). -/
  moving   : Option (Nat × Nat) := none
  tiles    : W32 := 0#32
  /-- The stream served last, for round robin (R212). -/
  last     : Nat × Nat := (63, 0xFFFF)
  deriving DecidableEq, Repr

structure MemCounts where
  ce : W32 := 0#32
  ue : W32 := 0#32
  repairs : Byte := 0#8
  /-- A DRAM stack that failed its training (R235). -/
  failed  : Bool := false
  /-- Words the background scrub has visited in its present pass, and the instant the pass began (R210). -/
  scrubbed : Nat := 0
  scrubFrom : W64 := 0#64
  deriving DecidableEq, Repr

structure Compute where
  bays   : Tab Bay := []
  lodes  : Tab Lode := []
  movers : Tab Mover := []
  /-- Error counts: 0-1 seam of A, B; 2-9 DRAM stacks (R234, R235). -/
  mems   : Tab MemCounts := []
  /-- LOAD_END packets accepted and not yet placed, oldest first. -/
  placing : List Nat := []
  /-- The lode that stepped last (R280). -/
  lastStep : Nat := 63
  deriving DecidableEq, Repr

/-! ## Host ports and queues -/

/-- A packet accepted from a queue's ingress ring, header included (R251). -/
structure Packet where
  seq   : W32
  bytes : List Byte
  /-- Padded length in bytes. -/
  padded : Nat
  /-- The instant of its acceptance (R295). -/
  accepted : W64 := 0#64
  deriving DecidableEq, Repr

/-- A packet waiting to be written to the response ring (R255): header fields and payload. -/
structure OutPkt where
  opcode  : Byte
  flags   : W16 := 0#16
  session : W32 := 0#32
  lode    : W16 := 0xFFFF#16
  cls     : Byte := 0#8
  payload : List Byte
  /-- The first answer of a REQUEST: its class, and the instant the REQUEST was accepted (R295). -/
  first   : Option (Nat × W64) := none
  deriving DecidableEq, Repr

inductive QState where
  | disabled | active | held | resetting
  deriving DecidableEq, Repr

structure Queue where
  st       : QState := .disabled
  wb       : W32 := 0#32
  accBytes : W32 := 0#32
  accSeq   : W32 := 0#32
  pktLim   : W32 := 0#32
  byteLim  : W32 := 0#32
  rtail    : W32 := 0#32
  rheadV   : W32 := 0#32
  outSeq   : W32 := 1#32
  gen      : W32 := 0#32
  discard  : Bool := false
  saturated : Bool := false
  drops    : W32 := 0#32
  /-- Ingress ring bytes by ring position, and cumulative positions, modulo 2^32, holding poisoned bytes (R242, R248). -/
  ring     : List Host.Cell := []
  poison   : List Nat := []
  /-- Positions whose last window write lay beyond BYTELIM (R248). -/
  missing  : List Nat := []
  /-- Credits of freed packets, and their bytes, that wait for room in the output half of the buffer (R102). -/
  owed     : Nat × Nat := (0, 0)
  inbox    : List Packet := []
  out      : List OutPkt := []
  lostEvents : Nat := 0
  mailDue  : Bool := false
  unsignalled : Nat := 0
  firstMail : W64 := 0#64
  /-- The instant zero credit began (R292), counts at zero credit in a 100 ms window, and the window's number. -/
  zeroSince : Option W64 := none
  zeroTime : Nat := 0
  zeroWin : Nat := 0
  /-- Requests and sessions a queue reset ended; the event waits for ENABLE (R259, R268). -/
  resetEvent : Option (Nat × Nat) := none
  deriving DecidableEq, Repr

/-- One posted write the device made to host memory, or an MSI-X message, with its Relaxed Ordering and No Snoop attributes
(R240, R257). -/
inductive Posted where
  | bytes (addr : W64) (data : List Byte) (relaxed : Bool := false) (noSnoop : Bool := false)
  | msix (vector : Byte) (relaxed : Bool := false) (noSnoop : Bool := false)
  deriving DecidableEq, Repr

structure Port where
  bme    : Bool := false
  d0     : Bool := true
  posted : List Posted := []
  haltVec : Option (BitVec 8) := none
  /-- Link errors reported through Advanced Error Reporting (R242). -/
  correctable : Nat := 0
  uncorrectable : Nat := 0
  /-- The MSI-X table by DW, and vectors whose message waits for their mask (R239; PRESUMED, LOG 53). -/
  vectors : Tab W32 := []
  waiting : List Nat := []
  deriving DecidableEq, Repr

structure HostSide where
  queues : Tab Queue := []
  ports  : Tab Port := []
  deriving DecidableEq, Repr

/-! ## Service -/

/-- A request's state before it has ended (R271); an ended request leaves the list. -/
inductive ReqState where
  | input | waiting | running
  deriving DecidableEq, Repr

/-- A request (R271-R290). -/
structure Request where
  queue   : Nat
  tag     : W32
  st      : ReqState
  cls     : Nat
  lode    : Nat
  session : W32
  maxNew  : Nat
  mode    : Byte
  k       : Nat
  p       : W32
  temp    : W32
  seed    : W64
  stops   : List W32
  input   : List W32
  stream  : Bool
  /-- Input tokens processed, output tokens produced and those already delivered. -/
  processed : Nat := 0
  output  : List W32 := []
  delivered : Nat := 0
  retried : Bool := false
  marked  : Bool := false
  finished : Bool := false
  /-- Padded length of the REQUEST packet, freed when it enters RUNNING (R271). -/
  padded  : Nat := 0
  /-- Tier of its working context: 0 none, 1 seam, 2 DRAM. -/
  tier    : Nat := 0
  half    : Half := .a
  accepted : W64 := 0#64
  /-- The timebase at the step boundary of its last token (R264). -/
  produced : W64 := 0#64
  /-- It has had its first RESPONSE or STATUS (R295). -/
  answered : Bool := false
  deriving DecidableEq, Repr

structure Session where
  ident  : W32
  queue  : Nat
  lode   : Nat
  half   : Half
  inSeam : Bool
  context : List W32 := []
  deriving DecidableEq, Repr

/-- The service keys of R294. -/
structure Policy where
  weights : Nat × Nat × Nat × Nat := (8, 4, 2, 1)
  quantum : Nat := 64
  batchMax : Nat := 256
  stepTok : Nat := 4096
  chunk   : Nat := 512
  capDelta : Nat := 100
  telePeriod : Nat := 10
  deriving DecidableEq, Repr

/-- A CANCEL or SESSION_CLOSE whose answer waits for requests to end (R277, R288). -/
structure Closing where
  asker   : Asker
  /-- Tags of the asking queue's requests that must end first, and requests it has ended. -/
  waits   : List W32
  ended   : Nat := 0
  /-- The session a SESSION_CLOSE names; 0 for a CANCEL. -/
  session : W32 := 0#32
  deriving DecidableEq, Repr

structure Service where
  requests : List Request := []
  sessions : List Session := []
  closings : List Closing := []
  usedIds  : List W32 := []
  policy   : Policy := {}
  /-- The policy each lode runs on until its next step boundary (R294), by slot. -/
  lodePolicy : Tab Policy := []
  capacity : Nat := 0
  published : Nat := 0
  retireDue : Bool := false
  /-- Output tokens per class, latency sums and counts of the present TELEPERIOD (R295). -/
  tokens   : Tab W32 := []
  latSum   : Tab W64 := []
  latCount : Tab Nat := []
  deriving DecidableEq, Repr

/-! ## Deputy, Overman, store -/

/-- An open Overman load (R307). -/
structure FwLoad where
  queue : Nat
  seq   : W32
  size  : Nat
  written : List Nat := []
  deriving DecidableEq, Repr

inductive OvmState where
  | absent | loading | verifying | starting | serving | lost | restarting
  deriving DecidableEq, Repr

/-- What interrupts Overman: a command of a cluster completed, a frequency request was replaced, a class reaction of Canary
(R116, R192, R331). -/
inductive OvmIrq where
  | slew (cluster : Nat)
  | superseded
  | canary
  deriving DecidableEq, Repr

structure Overman where
  st       : OvmState := .absent
  restartUsed : Bool := false
  version  : Nat := 0
  size     : Nat := 0
  digest   : List Byte := []
  deadline : W64 := 0#64
  /-- The watchdog limit counted from this instant (R313). -/
  kick     : W64 := 0#64
  stopped  : Bool := false
  /-- Interrupts raised to it; the spec gives no acknowledgement (DESIGN CHOICE, LOG 64). -/
  irqs     : List OvmIrq := []
  asker    : Option Asker := none
  deriving DecidableEq, Repr

structure Deputy where
  load     : Option FwLoad := none
  /-- Overman state and reserve content by half. -/
  overman  : Tab Overman := []
  reserve  : Tab (List Host.Cell) := []
  fuseCount : Tab Nat := []
  running  : Tab Bool := []
  /-- PMBus addresses in force, by converter (R79). -/
  convAddr : Tab (BitVec 7) := []
  deriving DecidableEq, Repr

/-- One bank of a settings store (R316): its two records' checks, and its sections as (key word, value) entries. -/
structure Bank where
  header  : Bool := false
  commit  : Bool := false
  forceLocal : Bool := false
  writer  : Half := .a
  seq     : W32 := 0#32
  globalSec : List (W32 × W32) := []
  secA    : List (W32 × W32) := []
  secB    : List (W32 × W32) := []
  deriving DecidableEq, Repr

inductive StoreState where
  | idle | waiting | writing | verifying | committing
  deriving DecidableEq, Repr

/-- A STORE in progress or waiting (R318). -/
structure StoreReq where
  force : Bool
  home  : Half
  askers : List Asker := []
  deriving DecidableEq, Repr

structure Nvm where
  banks    : Tab Bank := []
  calBad   : Tab Bool := []
  /-- Index of the bank in force by half; none: defaults (R319). -/
  inForce  : Tab (Option Nat) := []
  count    : Tab W32 := []
  divergent : Bool := false
  st       : StoreState := .idle
  result   : BitVec 4 := 0#4
  current  : Option StoreReq := none
  /-- The store being written is local to its home half (R318). -/
  localStore : Bool := false
  next     : Option StoreReq := none
  deriving DecidableEq, Repr

/-! ## Canary -/

structure CaptureRec where
  source  : BitVec 11 := 0#11
  kind    : BitVec 7 := 0#7
  cls     : BitVec 2 := 0#2
  word0   : W64 := 0#64
  hi      : W16 := 0#16
  hiValid : Bool := false
  master  : Byte := 0#8
  access  : BitVec 3 := 0#3
  time    : W64 := 0#64
  merge   : Nat := 0
  classes : BitVec 4 := 0#4
  reacted : BitVec 2 := 0#2
  second  : Bool := false
  logSlot : Nat := 0
  deriving DecidableEq, Repr

/-- A notice to the other half (R327). -/
structure NoticeRec where
  source : BitVec 11
  kind   : BitVec 7
  cls    : BitVec 2
  deriving DecidableEq, Repr

/-- The eight words of a sticky-log entry (R333). -/
structure LogEntry where
  words : List W32 := []
  deriving DecidableEq, Repr

structure Canary where
  inFlight : List CanMsg := []
  notices  : List NoticeRec := []
  held     : Option CaptureRec := none
  other    : Option NoticeRec := none
  counts   : Tab W16 := []
  log      : Tab LogEntry := []
  logHead  : Nat := 0
  logSeq   : Nat := 0
  safe     : Bool := false
  safeAt   : W64 := 0#64
  /-- Step 4 of the safe state is done (R332). -/
  domainsDone : Bool := false
  /-- Injection: checks left, armed, done, refused, cancelled, requester (R336, R338). -/
  injLeft  : Nat := 0
  armed    : Bool := false
  injDone  : Bool := false
  refused  : Bool := false
  cancelled : Bool := false
  requester : Byte := 0#8
  deriving DecidableEq, Repr

/-! ## Two-wire ports -/

structure TwiCtx where
  pointer : BitVec 24 := 0#24
  status  : Byte := 0#8
  /-- A write of this context is still being applied. -/
  busy    : Bool := false
  /-- A stretch is under way: true for a read. -/
  stretch : Option Bool := none
  deriving DecidableEq, Repr

/-- A message of TWI1 (R352). -/
structure PmMsg where
  word0 : W32
  word1 : W32
  half  : Half
  /-- A message of Deputy's own, whose response Deputy takes at once (DEDUCED, LOG 15). -/
  own   : Bool := false
  deriving DecidableEq, Repr

/-- The source of a TWI1 message (R351). -/
inductive PmSource where
  | deputy | poller | overman
  deriving DecidableEq, Repr

structure Converter where
  polled   : Bool := false
  status   : W16 := 0#16
  voutMode : Option Byte := none
  noAnswer : Bool := false
  episode  : Bool := false
  on       : Bool := false
  reading  : Tab W16 := []
  deriving DecidableEq, Repr

structure TwoWire where
  ctxs    : Tab TwiCtx := []
  /-- Bytes of the last reply of TWI0. -/
  reply   : List Byte := []
  pecErrs : Byte := 0#8
  stretchErrs : Byte := 0#8
  timeouts : Byte := 0#8
  depq    : List PmMsg := []
  /-- Messages of Deputy's own that wait for room in its queue. -/
  own     : List PmMsg := []
  ovmq    : List PmMsg := []
  polls   : List PmMsg := []
  rspd    : List W32 := []
  rspo    : List W32 := []
  /-- A message to be retried: its source, and attempts made (R354). -/
  retry   : Option (PmSource × Nat) := none
  losses  : Nat := 0
  lossCount : Byte := 0#8
  cml     : Byte := 0#8
  stuck   : Bool := false
  convs   : Tab Converter := []
  deriving DecidableEq, Repr

/-! ## Crosscut and bell line -/

inductive LinkState where
  | off | training | up | failed
  deriving DecidableEq, Repr

inductive LinkMode where
  | joined | split | autonomous
  deriving DecidableEq, Repr

structure Bundle where
  lane  : BitVec 6 := 0#6
  used  : Bool := false
  second : Bool := false
  deriving DecidableEq, Repr

structure LinkEnd where
  st      : LinkState := .off
  mode    : LinkMode := .joined
  reason  : Byte := 0#8
  result  : Byte := 0#8
  replays : W32 := 0#32
  failedReplays : Nat := 0
  repairs : W16 := 0#16
  splits  : W16 := 0#16
  splitAt : W64 := 0#64
  bundles : Tab Bundle := []
  lowSeen : Bool := false
  bell    : Bool := false
  /-- Valid frames since the bell line fell silent, and the instant of the last valid frame (R366). -/
  frames  : Nat := 0
  lastFrame : W64 := 0#64
  agreed  : Bool := false
  /-- This half's LINKCMD asked for a retrain (R372). -/
  asked   : Bool := false
  /-- The instant training began (R372). -/
  trainedAt : W64 := 0#64
  deriving DecidableEq, Repr

/-- Frames on the bell line that their commands deliver (R366, R368). -/
structure Bell where
  splitReq : Option Half := none
  splitGo  : Bool := false
  splitAck : Bool := false
  retrain  : Option Half := none
  align    : Bool := false
  storeData : Bool := false
  deriving DecidableEq, Repr

structure Link where
  ends : Tab LinkEnd := []
  bell : Bell := {}
  /-- PSEQ of the global pages at entry into SPLIT, by page base (R373). -/
  seqBase : Tab W32 := []
  deriving DecidableEq, Repr

/-! ## Crossings -/

/-- Critical values that crossed between domains with a bad complement (R51). -/
structure Crossing where
  /-- Register keys whose next word crosses badly (DESIGN CHOICE, LOG 58). -/
  bad   : List Nat := []
  /-- By register key, the word the unit still uses in place of the stored one. -/
  inUse : Tab (Option W32) := []
  deriving DecidableEq, Repr

/-! ## The whole -/

/-- Everything the spec gives the block. -/
structure Device where
  time    : Time := {}
  pins    : Pins := {}
  /-- BAR0 registers with stored words; key = copy x 2^24 + BAR0 offset (R21, R22). -/
  regs    : Tab W32 := []
  cross   : Crossing := {}
  txn     : Txn := {}
  power   : Power := {}
  regul   : Regulation := {}
  govs    : Tab Governor := []
  therms  : Tab Thermal := []
  compute : Compute := {}
  host    : HostSide := {}
  service : Service := {}
  deputy  : Deputy := {}
  nvm     : Nvm := {}
  cans    : Tab Canary := []
  twi     : TwoWire := {}
  link    : Link := {}
  deriving DecidableEq, Repr

/-- The block and the commands that wait for it, first in, first out. -/
structure State where
  pending : List Instr
  dev     : Device
  deriving DecidableEq, Repr

/-- Why a step stops the machine. No command of the SHX-1216 stops it, so there is no reason. -/
inductive Fault where
  deriving DecidableEq, Repr

/-- Why a command has no meaning in the model. -/
inductive Refusal where
  /-- The command's meaning is not written. Raised by Dispatch alone; safe: nothing is claimed of it. -/
  | notModelled (mnemonic : String)
  deriving DecidableEq, Repr

/-- The block held in cold reset: PORST_N and both PERSTh_N low, every domain OFF, every register at its reset
value (an empty table), no command waiting. -/
def State.reset : State := { pending := [], dev := {} }

end Sys2Proof.Machine
end

