-- ==== Sys2Proof/Machine/Ops.lean ====
section
/-! DEFINITION. The named operations every meaning is written with: tables, registers and their copies, units,
time, and the reports a unit sends to its Canary. -/

namespace Sys2Proof.Machine

/-- The next state of a command: its effect on everything but the queue of waiting commands. -/
def runOn (s : State) (f : Device → Device) : Host.Outcome State Fault Refusal :=
  .next { s with dev := f s.dev }

/-! ## Tables -/

/-- The value at an index; `dflt` where the table lists none. -/
def tabGet {α : Type} (dflt : Nat → α) : Tab α → Nat → α
  | [], i => dflt i
  | (j, v) :: t, i => if i = j then v else tabGet dflt t i

/-- Put an entry among rising indices, replacing the one of the same index. -/
def tabPut {α : Type} (i : Nat) (v : α) : Tab α → Tab α
  | [] => [(i, v)]
  | (j, w) :: t => if i < j then (i, v) :: (j, w) :: t else if i = j then (i, v) :: t else (j, w) :: tabPut i v t

/-- Write a value at an index, keeping the canonical form: indices rise and no entry equals its default. -/
def tabSet {α : Type} [DecidableEq α] (dflt : Nat → α) (i : Nat) (v : α) (t : Tab α) : Tab α :=
  if v = dflt i then t.filter (fun e => e.1 ≠ i) else tabPut i v t

/-- An index lies above a bound; none is no bound. -/
def liesAbove : Option Nat → Nat → Bool
  | none, _ => true
  | some k, j => decide (k < j)

/-- Indices rise from above a bound, and no value is its default. -/
def tabAbove {α : Type} [DecidableEq α] (dflt : Nat → α) : Option Nat → Tab α → Bool
  | _, [] => true
  | b, (j, v) :: t => liesAbove b j && decide (v ≠ dflt j) && tabAbove dflt (some j) t

/-- The canonical form of a table. -/
def tabWf {α : Type} [DecidableEq α] (dflt : Nat → α) (t : Tab α) : Bool := tabAbove dflt none t

/-- A table of plain values that default to one value. -/
def tget {α : Type} (x : α) (t : Tab α) (i : Nat) : α := tabGet (fun _ => x) t i
def tset {α : Type} [DecidableEq α] (x : α) (i : Nat) (v : α) (t : Tab α) : Tab α := tabSet (fun _ => x) i v t

/-- Change every listed value of a table, for a change that leaves the default alone. -/
def tmap {α : Type} [DecidableEq α] (x : α) (f : Nat → α → α) (t : Tab α) : Tab α :=
  (t.map fun e => (e.1, f e.1 e.2)).filter fun e => e.2 ≠ x

/-- Bytes of a memory: a byte nothing has written reads 0 (DESIGN CHOICE, LOG 5). -/
def byteAt (m : List Host.Cell) (a : Nat) : Byte := tget 0#8 m a

/-- The nonzero bytes of a list as cells from an address. -/
def cellsOf (a : Nat) : List Byte → List Host.Cell
  | [] => []
  | b :: bs => if b = 0#8 then cellsOf (a + 1) bs else (a, b) :: cellsOf (a + 1) bs

/-- Write bytes at consecutive addresses: cells below, the new bytes, cells beyond. -/
def putBytes (m : List Host.Cell) (a : Nat) (bs : List Byte) : List Host.Cell :=
  m.takeWhile (fun c => decide (c.1 < a)) ++ cellsOf a bs
    ++ m.dropWhile (fun c => decide (c.1 < a + bs.length))

/-- n bytes from an address, of cells none of which lies below it. -/
def readCells : List Host.Cell → Nat → Nat → List Byte
  | _, _, 0 => []
  | [], a, n + 1 => 0#8 :: readCells [] (a + 1) n
  | (j, b) :: m, a, n + 1 =>
    if j = a then b :: readCells m (a + 1) n else 0#8 :: readCells ((j, b) :: m) (a + 1) n

/-- n bytes from an address. -/
def getBytes (m : List Host.Cell) (a n : Nat) : List Byte :=
  readCells (m.dropWhile fun c => decide (c.1 < a)) a n

/-! ## Registers -/

/-- The register key of a page offset: a global page has a copy in each half (R22). -/
def regKey (h : Half) (p : PageId) (off : Nat) : Nat :=
  (if p.1.isGlobal then h.idx * 2 ^ 24 else 0) + pageBase p + off

/-- A stored register word by key. -/
def Device.word (d : Device) (key : Nat) : W32 := tabGet regReset d.regs key

/-- A word reaches a register and, with a good complement, the unit that uses it (R51). -/
def Device.setWord (d : Device) (key : Nat) (v : W32) : Device :=
  { d with regs := tabSet regReset key v d.regs, cross := { d.cross with inUse := tset none key none d.cross.inUse } }

/-- The word the unit uses of a register: the stored one, or the last that crossed with a good complement (R51). -/
def Device.used (d : Device) (key : Nat) : W32 := (tget none d.cross.inUse key).getD (d.word key)

/-- The word of a register has just been replaced: where its crossing is spoilt, the unit keeps the word it used before
(R51; DESIGN CHOICE, LOG 58). -/
def Device.crossed (before d : Device) (key : Nat) : Device :=
  if d.cross.bad.contains key then
    { d with cross := { bad := d.cross.bad.filter (· != key), inUse := tset none key (some (before.used key)) d.cross.inUse } }
  else d

/-- A stored register word, from the copy of half h where the page is global. -/
def Device.reg (d : Device) (h : Half) (p : PageId) (off : Nat) : W32 := d.word (regKey h p off)

def Device.setReg (d : Device) (h : Half) (p : PageId) (off : Nat) (v : W32) : Device :=
  d.setWord (regKey h p off) v

/-- Write both copies of a global page, or the page itself. -/
def Device.setBoth (d : Device) (p : PageId) (off : Nat) (v : W32) : Device :=
  (d.setReg .a p off v).setReg .b p off v

/-- The 16-bit value the unit uses of a CP register: the low half of the word in use (R33, R51). -/
def Device.cp (d : Device) (h : Half) (p : PageId) (off : Nat) : Nat := low16 (d.used (regKey h p off))

/-- Set bits of a page's PERR (R23). -/
def Device.perr (d : Device) (h : Half) (p : PageId) (bits : Nat) : Device :=
  d.setReg h p 0x14 (d.reg h p 0x14 ||| w32 bits)

/-- PERR on both copies of a global page. -/
def Device.perrBoth (d : Device) (p : PageId) (bits : Nat) : Device := (d.perr .a p bits).perr .b p bits

/-- PSEQ plus 1, modulo 2³² (R27). -/
def Device.bumpSeq (d : Device) (h : Half) (p : PageId) : Device := d.setReg h p 0x24 (d.reg h p 0x24 + 1#32)

def devP : PageId := (.dev, 0)
def tmbP : PageId := (.tmb, 0)
def txnP : PageId := (.txn, 0)
def nvmP : PageId := (.nvm, 0)
def depP : PageId := (.dep, 0)
def ovmP : PageId := (.ovm, 0)
def pdmP : PageId := (.pdm, 0)
def clkP : PageId := (.clk, 0)
def cluP (n : Nat) : PageId := (.clu, n)
def lpeP (n : Nat) : PageId := (.lpe, n)
def ralP (r : Nat) : PageId := (.ral, r)
def thmP (h : Half) : PageId := (.thm, h.idx)
def govP (h : Half) : PageId := (.gov, h.idx)
def canP (h : Half) : PageId := (.can, h.idx)
def canjP (h : Half) : PageId := (.canj, h.idx)
def twiP (k : Nat) : PageId := (.twi, k)
def lnkP (h : Half) : PageId := (.lnk, h.idx)
def bayP (k : Nat) : PageId := (.bay, k)
def memP (k : Nat) : PageId := (.mem, k)
def queP (q : Nat) : PageId := (.que, q)

/-- The half of a cluster, bay, queue or RAL instance. -/
def cluHalf (n : Nat) : Half := if n < 36 then .a else .b
def bayHalf (k : Nat) : Half := if k < 28 then .a else .b
def queHalf (q : Nat) : Half := if q < 512 then .a else .b
def ralHalf (r : Nat) : Half := if r < 6 then .a else .b
def moverHalf (m : Nat) : Half := if m < 8 then .a else .b

/-- The home half of a master (R22). -/
def homeOf : Master → Half
  | .hosta => .a
  | .hostb => .b
  | .twi => .a
  | .ovm c => if c.val < 4 then .a else .b
  | .dep h => h

/-- The transaction slot of a master (R37). -/
def slotOf : Master → Nat
  | .hosta => 0 | .hostb => 1 | .ovm _ => 2 | .dep _ => 3 | .twi => 4

/-- Master codes of a report (R325). -/
def masterCode : Master → Nat
  | .hosta => 0x01 | .hostb => 0x02 | .dep _ => 0x03 | .twi => 0x04 | .ovm c => 0x08 + c.val

/-- Index of a master's own read data and TBHI snapshot (R54). -/
def masterIdx : Master → Nat
  | .hosta => 0 | .hostb => 1 | .ovm c => 2 + c.val | .dep h => 10 + h.idx | .twi => 12

/-! ## Units -/

def Device.part (d : Device) (p : Nat) : Part := tget {} d.power.parts p
def Device.setPart (d : Device) (p : Nat) (x : Part) : Device :=
  { d with power := { d.power with parts := tset {} p x d.power.parts } }

def Device.cluster (d : Device) (n : Nat) : Cluster := tget {} d.regul.clusters n
def Device.setCluster (d : Device) (n : Nat) (x : Cluster) : Device :=
  { d with regul := { d.regul with clusters := tset {} n x d.regul.clusters } }
def Device.modCluster (d : Device) (n : Nat) (f : Cluster → Cluster) : Device := d.setCluster n (f (d.cluster n))

def Cluster.cell (x : Cluster) (c : Nat) : Cell := tget {} x.cells c
def Cluster.setCell (x : Cluster) (c : Nat) (y : Cell) : Cluster := { x with cells := tset {} c y x.cells }
def Cluster.modCell (x : Cluster) (c : Nat) (f : Cell → Cell) : Cluster := x.setCell c (f (x.cell c))

def Device.engine (d : Device) (n : Nat) : Engine := tget {} d.regul.engines n
def Device.setEngine (d : Device) (n : Nat) (x : Engine) : Device :=
  { d with regul := { d.regul with engines := tset {} n x d.regul.engines } }
def Device.modEngine (d : Device) (n : Nat) (f : Engine → Engine) : Device := d.setEngine n (f (d.engine n))

def Device.capture (d : Device) (h : Half) : Capture := tget {} d.regul.captures h.idx
def Device.setCapture (d : Device) (h : Half) (x : Capture) : Device :=
  { d with regul := { d.regul with captures := tset {} h.idx x d.regul.captures } }

def Device.rail (d : Device) (r : Nat) : Rail := tget {} d.regul.rails r
def Device.setRail (d : Device) (r : Nat) (x : Rail) : Device :=
  { d with regul := { d.regul with rails := tset {} r x d.regul.rails } }
def Device.modRail (d : Device) (r : Nat) (f : Rail → Rail) : Device := d.setRail r (f (d.rail r))

def Device.sync (d : Device) (g : Nat) : SyncGroup := tget {} d.regul.syncs g
def Device.setSync (d : Device) (g : Nat) (x : SyncGroup) : Device :=
  { d with regul := { d.regul with syncs := tset {} g x d.regul.syncs } }

def Device.gov (d : Device) (h : Half) : Governor := tget {} d.govs h.idx
def Device.setGov (d : Device) (h : Half) (x : Governor) : Device := { d with govs := tset {} h.idx x d.govs }
def Device.modGov (d : Device) (h : Half) (f : Governor → Governor) : Device := d.setGov h (f (d.gov h))

/-- The spender of a governed cluster of the half: 0-27 bays, 28-31 seam layers (R182). -/
def Governor.spender (g : Governor) (k : Nat) : Spender := tget {} g.spenders k
def Governor.setSpender (g : Governor) (k : Nat) (x : Spender) : Governor :=
  { g with spenders := tset {} k x g.spenders }
def Device.modSpender (d : Device) (h : Half) (k : Nat) (f : Spender → Spender) : Device :=
  d.modGov h fun g => g.setSpender k (f (g.spender k))

def Device.therm (d : Device) (h : Half) : Thermal := tget {} d.therms h.idx
def Device.setTherm (d : Device) (h : Half) (x : Thermal) : Device := { d with therms := tset {} h.idx x d.therms }

def Device.bay (d : Device) (k : Nat) : Bay := tget {} d.compute.bays k
def Device.setBay (d : Device) (k : Nat) (x : Bay) : Device :=
  { d with compute := { d.compute with bays := tset {} k x d.compute.bays } }
def Device.modBay (d : Device) (k : Nat) (f : Bay → Bay) : Device := d.setBay k (f (d.bay k))

def Device.lode (d : Device) (l : Nat) : Lode := tget {} d.compute.lodes l
def Device.setLode (d : Device) (l : Nat) (x : Lode) : Device :=
  { d with compute := { d.compute with lodes := tset {} l x d.compute.lodes } }
def Device.modLode (d : Device) (l : Nat) (f : Lode → Lode) : Device := d.setLode l (f (d.lode l))

def Device.mover (d : Device) (m : Nat) : Mover := tget {} d.compute.movers m
def Device.setMover (d : Device) (m : Nat) (x : Mover) : Device :=
  { d with compute := { d.compute with movers := tset {} m x d.compute.movers } }

def Device.mem (d : Device) (k : Nat) : MemCounts := tget {} d.compute.mems k
def Device.setMem (d : Device) (k : Nat) (x : MemCounts) : Device :=
  { d with compute := { d.compute with mems := tset {} k x d.compute.mems } }

def Device.queue (d : Device) (q : Nat) : Queue := tget {} d.host.queues q
def Device.setQueue (d : Device) (q : Nat) (x : Queue) : Device :=
  { d with host := { d.host with queues := tset {} q x d.host.queues } }
def Device.modQueue (d : Device) (q : Nat) (f : Queue → Queue) : Device := d.setQueue q (f (d.queue q))

def Device.port (d : Device) (h : Half) : Port := tget {} d.host.ports h.idx
def Device.setPort (d : Device) (h : Half) (x : Port) : Device :=
  { d with host := { d.host with ports := tset {} h.idx x d.host.ports } }

def Device.ovman (d : Device) (h : Half) : Overman := tget {} d.deputy.overman h.idx
def Device.setOvman (d : Device) (h : Half) (x : Overman) : Device :=
  { d with deputy := { d.deputy with overman := tset {} h.idx x d.deputy.overman } }

def Device.canary (d : Device) (h : Half) : Canary := tget {} d.cans h.idx
def Device.setCanary (d : Device) (h : Half) (x : Canary) : Device := { d with cans := tset {} h.idx x d.cans }
def Device.modCanary (d : Device) (h : Half) (f : Canary → Canary) : Device := d.setCanary h (f (d.canary h))

def Device.linkEnd (d : Device) (h : Half) : LinkEnd := tget {} d.link.ends h.idx
def Device.setLinkEnd (d : Device) (h : Half) (x : LinkEnd) : Device :=
  { d with link := { d.link with ends := tset {} h.idx x d.link.ends } }

def Device.slotAt (d : Device) (k : Nat) : TxnSlot := tget {} d.txn.slots k
def Device.setSlot (d : Device) (k : Nat) (x : TxnSlot) : Device :=
  { d with txn := { d.txn with slots := tset {} k x d.txn.slots } }

/-- The halves are split or run alone (R367). -/
def Device.apart (d : Device) : Bool := (d.linkEnd .a).mode != .joined || (d.linkEnd .b).mode != .joined

/-- The crosscut carries traffic. -/
def Device.crosscutUp (d : Device) : Bool := (d.linkEnd .a).st == .up && (d.linkEnd .b).st == .up

/-- The bell line is alive at both ends. -/
def Device.bellUp (d : Device) : Bool := (d.linkEnd .a).bell && (d.linkEnd .b).bell

/-- PORST_N is high and the device is not DORMANT. -/
def Device.awake (d : Device) : Bool := !d.pins.porstLow && !d.power.dormant

/-- A master's accesses reach the register fabric: a host through its port, out of PERSTh_N and powered; a service core
while its half's SVC rail is ON; Deputy and TWI0 while their island is awake (R23, R62, R81, R96; DEDUCED, LOG 14). -/
def Device.reaches (d : Device) (m : Master) : Bool :=
  let h := homeOf m
  let svc := (d.part (svcPart h)).st == .on
  d.awake && match m with
    | .hosta | .hostb => !tget true d.pins.persthLow h.idx && svc
    | .ovm _ => svc
    | .dep _ | .twi => true

/-! ## Time (R53, DESIGN CHOICE, LOG 2) -/

def Device.tb (d : Device) : Half → W64
  | .a => d.time.tbA
  | .b => d.time.tbB

/-- AONCLK cycles until Half B's timebase has moved on by n counts: 1,001 counts in each 1,000 cycles while it adds, 999
while it omits, until the slew is done (R55). -/
def Time.cyclesB (t : Time) (n : Nat) : Nat :=
  let total := t.slew.natAbs
  let m := t.pace + n
  if t.slew = 0 then n
  else if 0 < t.slew then
    if total < m / 1001 then n - total
    else if m % 1001 = 1000 then (m / 1001 + 1) * 1000 - t.pace else m - m / 1001 - t.pace
  else satNat (n + total) (n + (m - 1) / 999)

/-- n AONCLK cycles pass. Half B's timebase takes at most one slewed count in each 1,000 of them (R55). -/
def Time.cycles (t : Time) (n : Nat) : Time :=
  let k := satNat t.slew.natAbs ((t.pace + n) / 1000)
  let up := decide (0 < t.slew)
  { t with
    tbA := t.tbA + BitVec.ofNat 64 n
    tbB := t.tbB + BitVec.ofNat 64 (if up then n + k else n - k)
    slew := if up then t.slew - k else t.slew + k
    pace := if t.slew = 0 then 0 else (t.pace + n) % 1000 }

/-- Time passes by n counts of Half h. -/
def Time.pass (t : Time) (h : Half) (n : Nat) : Time :=
  t.cycles (match h with
    | .a => n
    | .b => t.cyclesB n)

/-- One AONCLK cycle: what the block does with no command waiting; none passes while PORST_N holds the islands in reset (R53,
R83; DESIGN CHOICE, LOG 2). -/
def Device.tick (d : Device) : Device := if d.pins.porstLow then d else { d with time := d.time.pass .a 1 }

/-- Time passes until Half h's timebase reads t; nothing where it already does or has passed it (DESIGN CHOICE, LOG 2). -/
def Device.advanceTo (d : Device) (h : Half) (t : W64) : Device :=
  if !d.pins.porstLow ∧ (d.tb h).toNat < t.toNat then { d with time := d.time.pass h (t - d.tb h).toNat } else d

/-- The first multiple of n counts strictly after t. -/
def nextMultiple (n : Nat) (t : W64) : W64 := BitVec.ofNat 64 ((t.toNat / n + 1) * n)

/-- Time passes to the next multiple of n counts on Half h's timebase. -/
def Device.advanceGrid (d : Device) (h : Half) (n : Nat) : Device := d.advanceTo h (nextMultiple n (d.tb h))

/-- Time passes by n counts of Half h. -/
def Device.advanceBy (d : Device) (h : Half) (n : Nat) : Device :=
  if d.pins.porstLow then d else { d with time := d.time.pass h n }

/-- A fresh value of the free words (DESIGN CHOICE, LOG 7). -/
def Device.fresh (d : Device) : W32 × Device :=
  (Config.freeWord d.time.freeCount, { d with time := { d.time with freeCount := d.time.freeCount + 1 } })

/-! ## Reports (R321, R322) -/

/-- What a checker reports. `addr` is a BAR0 offset or a memory byte address. -/
structure Report where
  unit   : Nat
  kind   : Nat
  addr   : Nat := 0
  detail : Nat := 0
  master : Nat := 0
  access : Nat := 0
  /-- The address is wider than 32 bits (R321). -/
  wide   : Bool := false
  injected : Bool := false
  cond   : Bool := false
  deriving DecidableEq, Repr

/-- Word 0 of a report (R321). -/
def Report.word0 (r : Report) (h : Half) : W64 :=
  BitVec.ofNat 64 (h.idx * 2 ^ 63 + r.unit % 1024 * 2 ^ 53 + r.kind % 128 * 2 ^ 46 + r.addr % 2 ^ 32 * 2 ^ 14
    + flag r.injected 13 + r.detail % 2 ^ 13)

/-- The message of a report, complement included (R321). -/
def Report.message (r : Report) (h : Half) : CanMsg :=
  let w := r.word0 h
  { word0 := w
    word1 := ~~~ BitVec.ofNat 32 (w.toNat / 2 ^ 32)
    addrHi := if r.wide then some (BitVec.ofNat 16 (r.addr / 2 ^ 32)) else none
    master := BitVec.ofNat 8 r.master
    access := BitVec.ofNat 3 r.access
    cond := r.cond }

/-- A checker of Half h sends a report; Canary accepts it at a later CANARY_REPORT (R321, R324). -/
def Device.report (d : Device) (h : Half) (r : Report) : Device :=
  d.modCanary h fun c => { c with inFlight := c.inFlight ++ [r.message h] }

/-- Reports, in order. -/
def Device.reports (d : Device) (h : Half) (rs : List Report) : Device :=
  d.modCanary h fun c => { c with inFlight := c.inFlight ++ rs.map (·.message h) }

/-- A report of a unit about one of its own registers. -/
def unitReport (unit kind : Nat) (p : PageId) (off : Nat := 0) (detail : Nat := 0) : Report :=
  { unit, kind, addr := pageBase p + off, detail }

/-- Unit number of a page's unit, for reports (R322). -/
def unitOf (p : PageId) : Nat :=
  match p.1 with
  | .clu | .lpe => p.2 % 36
  | .ral => 0x24 + p.2 % 6
  | .bay => 0x30 + p.2 % 28
  | .que => 0x100 + p.2 % 512
  | .thm => 0x65 | .gov => 0x66 | .pdm => 0x67 | .clk | .tmb => 0x68 | .lnk => 0x69 | .nvm => 0x6B
  | .twi => 0x6C | .can | .canj => 0x6F | .dep => 0x64 | .ovm => 0x60
  | .dev | .txn => 0x6E
  | .mem => if p.2 < 2 then 0x58 else if p.2 < 10 then 0x5C + (p.2 - 2) % 4 else 0x50

/-- Overman of a half is interrupted; an interrupt already pending stays one (DESIGN CHOICE, LOG 64). -/
def Device.interrupt (d : Device) (h : Half) (q : OvmIrq) : Device :=
  let o := d.ovman h
  if o.irqs.contains q then d else d.setOvman h { o with irqs := o.irqs ++ [q] }

/-! ## Iteration -/

/-- Apply an operation for each element, in order. -/
def Device.each {α : Type} (d : Device) (xs : List α) (f : Device → α → Device) : Device := xs.foldl f d

/-- Replace the first element that satisfies p. -/
def replaceFirst {α : Type} (p : α → Bool) (f : α → α) : List α → List α
  | [] => []
  | x :: xs => if p x then f x :: xs else x :: replaceFirst p f xs

end Sys2Proof.Machine
end

