-- ==== Sys2Proof/Machine/HostOut.lean ====
section
/-! DEFINITION. What the device writes to the host: output packets, events, credits (R244-R246, R255-R269, R292). -/

namespace Sys2Proof.Machine

/-! ## Queue settings -/

/-- BUFSZ: the buffer of a queue is 64 KiB x 2^BUFSZ (R245). -/
def Device.queBuf (d : Device) (q : Nat) : Nat := 65536 * 2 ^ fld (d.reg .a (queP q) 0x40) 2 0

/-- Ingress capacity C (R245). -/
def Device.queCap (d : Device) (q : Nat) : Nat := d.queBuf q / 2

/-- Packet depth P (R245). -/
def Device.queDepth (d : Device) (q : Nat) : Nat := fld (d.reg .a (queP q) 0x40) 23 16

/-- RSIZE (R255). -/
def Device.ringSize (d : Device) (q : Nat) : Nat := 4096 * 2 ^ fld (d.reg .a (queP q) 0x4C) 3 0

/-- The response ring's base address (R255, R270). -/
def Device.ringBase (d : Device) (q : Nat) : W64 :=
  BitVec.ofNat 64 ((d.reg .a (queP q) 0x48).toNat * 2 ^ 32 + (d.reg .a (queP q) 0x44).toNat)

/-- The mailbox address (R256, R270). -/
def Device.mailbox (d : Device) (q : Nat) : W64 :=
  BitVec.ofNat 64 ((d.reg .a (queP q) 0x5C).toNat * 2 ^ 32 + (d.reg .a (queP q) 0x58).toNat)

/-- Queues 0-7 and 512-519 are control queues (R243). -/
def isControl (q : Nat) : Bool := decide (q % 512 < 8)

/-- The two control queues Deputy serves (R305). -/
def isBootQueue (q : Nat) : Bool := q % 512 == 0

/-! ## Who serves a queue -/

/-- Overman serves on Half h (R311). -/
def Device.serving (d : Device) (h : Half) : Bool := (d.ovman h).st == .serving

/-- Overman serves on some half (R304). -/
def Device.anyServing (d : Device) : Bool := d.serving .a || d.serving .b

/-- The server of a queue (R246, R305). -/
inductive Server where
  | nobody | deputy | overman
  deriving DecidableEq, Repr

/-- The server of a queue: none until PD3 and PD4 have been ON, of halves apart the half's own, nor while the half's SEAM domain is
not ON (R90, R93); Overman while it serves the half; Deputy on
queues 0 and 512 in boot mode (R246, R305). -/
def Device.serverOf (d : Device) (q : Nat) : Server :=
  let h := queHalf q
  if (d.part (seamPart h)).st ≠ .on ∨ (d.part (svcPart h)).st ≠ .on ∨ !(d.power.creditOpen || d.apart) then .nobody
  else if d.serving h then .overman
  else if isBootQueue q && tget false d.deputy.running h.idx && !d.power.bootHalt then .deputy
  else .nobody

/-- The limits a queue shows: with no server, values that allow no packet (R246). -/
def Device.pktLimit (d : Device) (q : Nat) : W32 :=
  if d.serverOf q = .nobody then (d.queue q).accSeq else (d.queue q).pktLim
def Device.byteLimit (d : Device) (q : Nat) : W32 :=
  if d.serverOf q = .nobody then (d.queue q).accBytes else (d.queue q).byteLim

/-- Zero credit (R292). -/
def Device.zeroCredit (d : Device) (q : Nat) : Bool :=
  let x := d.queue q
  x.st == .active &&
    (d.pktLimit q == x.accSeq || decide ((d.byteLimit q - x.accBytes).toNat < 64))

/-- Counts in a 100 ms window (R292). -/
def satWindow : Nat := 10000000

/-- Time a queue has been at zero credit in the present window, up to now. -/
def Device.zeroSpan (d : Device) (q : Nat) : Nat :=
  let x := d.queue q
  let t := (d.tb (queHalf q)).toNat
  let win := t / satWindow
  (if x.zeroWin = win then x.zeroTime else 0)
    + (match x.zeroSince with
      | none => 0
      | some s => t - max s.toNat (win * satWindow))

/-- Account for the time a queue spends at zero credit; called whenever its credits may have changed (R292). -/
def Device.accountZero (d : Device) (q : Nat) : Device :=
  let t := d.tb (queHalf q)
  let span := d.zeroSpan q
  let z := d.zeroCredit q
  d.modQueue q fun x =>
    { x with zeroTime := span, zeroWin := t.toNat / satWindow, zeroSince := if z then some t else none }

/-- A change of PKTLIM, BYTELIM, RTAIL or the flags makes a mailbox write due (R256). -/
def Device.mailDue (d : Device) (q : Nat) : Device :=
  (d.modQueue q fun x => { x with mailDue := x.mailDue || x.st == .active }).accountZero q

/-- Queue numbers the table lists. -/
def Device.queueNumbers (d : Device) : List Nat := d.host.queues.map (·.1)

/-- The server of a half's queues may have changed: their limits and mailboxes follow (R246, R256). -/
def Device.refreshCredits (d : Device) (h : Half) : Device :=
  d.each (d.queueNumbers.filter fun q => queHalf q == h) Device.mailDue

/-! ## Output packets -/

/-- Padded length of an output packet. -/
def OutPkt.padded (p : OutPkt) : Nat := pad64 (32 + p.payload.length)

/-- The output half of a queue's buffer is full (R102, R245). -/
def Device.outFull (d : Device) (q : Nat) : Bool := decide (d.queCap q ≤ ((d.queue q).out.map OutPkt.padded).sum)

/-- Credits that waited for room in the output half advance once there is some (R102). -/
def Device.payCredits (d : Device) (q : Nat) : Device :=
  let x := d.queue q
  if x.owed = (0, 0) ∨ d.outFull q then d
  else
    (d.setQueue q { x with
      pktLim := x.pktLim + w32 x.owed.1, byteLim := x.byteLim + w32 x.owed.2, owed := (0, 0) }).mailDue q

/-- Return the credit of one packet of the given padded length; credits do not advance while the output half is full
(R102, R246). -/
def Device.freeCredit (d : Device) (q padded : Nat) : Device :=
  (d.modQueue q fun x => { x with owed := (x.owed.1 + 1, x.owed.2 + padded) }).payCredits q

/-- A RESPONSE, STATUS or EVENT's timebase and a queue's own half. -/
def Device.stamp (d : Device) (q : Nat) : W64 := d.tb (queHalf q)

/-- A STATUS packet (R264, R267). -/
def statusPkt (tb : W64) (tag : W32) (code detail a b : Nat) : OutPkt :=
  { opcode := 0x82#8
    payload := leBytes 4 tag.toNat ++ leBytes 2 code ++ leBytes 2 detail ++ leBytes 8 a ++ leBytes 8 b
      ++ leBytes 8 tb.toNat }

/-- An EVENT packet (R264, R268). -/
def eventPkt (tb : W64) (code detail a b : Nat) (lode : W16 := 0xFFFF#16) : OutPkt :=
  { opcode := 0x83#8, lode
    payload := leBytes 2 code ++ leBytes 2 0 ++ leBytes 4 detail ++ leBytes 8 a ++ leBytes 8 b ++ leBytes 8 tb.toNat }

/-- A RESPONSE packet (R264). -/
def responsePkt (tb : W64) (tag : W32) (index : Nat) (tokens : List W32) : OutPkt :=
  { opcode := 0x81#8
    payload := leBytes 4 tag.toNat ++ leBytes 4 index ++ leBytes 4 tokens.length ++ leBytes 4 0
      ++ leBytes 8 tb.toNat ++ leBytes 8 0 ++ tokens.flatMap fun t => leBytes 4 t.toNat }

/-- The XOR of the 32-bit words of a list of bytes. -/
def xorWords (bs : List Byte) : W32 :=
  (List.range (bs.length / 4)).foldl (fun acc i => acc ^^^ w32 (fieldAt bs (4 * i) 4)) 0#32

/-- The bytes of a device-to-host packet, padded to 64 with zeros (R255, R262). -/
def OutPkt.bytes (p : OutPkt) (q : Nat) (seq : W32) : List Byte :=
  let len := 32 + p.payload.length
  let crc : W32 := if p.payload.isEmpty then 0#32 else crc32c p.payload
  let head := leBytes 2 0x58C6 ++ [0x01#8, p.opcode] ++ leBytes 2 q ++ leBytes 2 p.flags.toNat ++ leBytes 4 len
    ++ leBytes 4 seq.toNat ++ leBytes 4 p.session.toNat ++ leBytes 2 p.lode.toNat ++ [p.cls, 0#8] ++ leBytes 4 crc.toNat
  let hchk := ~~~ xorWords head
  head ++ leBytes 4 hchk.toNat ++ p.payload ++ List.replicate (pad64 len - len) 0#8

/-- A packet waits behind a queue's output; the first one changes the mailbox's flag of held output (R256). -/
def Queue.enqueue (x : Queue) (p : OutPkt) : Queue :=
  { x with out := x.out ++ [p], mailDue := x.mailDue || (x.st == .active && x.out.isEmpty) }

/-- Put an answer behind a queue's waiting output; ACTIVE and HELD queues keep it, others have no output (R259, R266). -/
def Device.pushOut (d : Device) (q : Nat) (p : OutPkt) : Device :=
  d.modQueue q fun x => if x.st = .active ∨ x.st = .held then x.enqueue p else x

/-- Events of a queue that wait for ring space (R269). -/
def Queue.backlog (x : Queue) : Nat := (x.out.filter (·.opcode == 0x83#8)).length

/-- Put an event behind the waiting output of an ACTIVE queue; past 64 waiting events it is counted instead (R269). -/
def Device.pushEvent (d : Device) (q : Nat) (p : OutPkt) : Device :=
  d.modQueue q fun x =>
    if x.st ≠ .active then x
    else if x.backlog < 64 then x.enqueue p
    else { x with lostEvents := x.lostEvents + 1 }

/-- An event that only one queue's ring receives (R268). -/
def Device.queueEvent (d : Device) (q code detail a b : Nat) : Device :=
  d.pushEvent q (eventPkt (d.stamp q) code detail a b)

/-- An event of Half h to every ring of R268: while the halves are apart it reaches that half's port alone (R369, R371). -/
def Device.eventFrom (d : Device) (h : Half) (code detail a b : Nat) (lode : W16 := 0xFFFF#16) : Device :=
  let apart := d.apart
  d.each (d.queueNumbers.filter fun q => queHalf q == h || !apart) fun d q =>
    d.pushEvent q (eventPkt (d.stamp q) code detail a b lode)

/-- EVENT SERVING to the ACTIVE control queues of Half h (R305, R308). -/
def Device.eventServing (d : Device) (h : Half) (a : Nat) : Device :=
  d.each (d.queueNumbers.filter fun q => queHalf q == h && isControl q && (a == 1 || isBootQueue q)) fun d q =>
    d.queueEvent q 0x000F 0 a 0

/-- Answer a host-to-device packet with a STATUS that carries its sequence, and free its credit (R266, R271). -/
def Device.answer (d : Device) (q : Nat) (p : Packet) (code detail : Nat) (a : Nat := 0) (b : Nat := 0) : Device :=
  (d.pushOut q (statusPkt (d.stamp q) p.seq code detail a b)).freeCredit q p.padded

/-! ## Queues that lose their buffer -/

/-- An asker whose queue is none of those. -/
def keepAsker (gone : Nat → Bool) (a : Option Asker) : Option Asker := a.filter fun a => !gone a.queue

/-- The answers that packets of some queues wait for are not written: their queue buffer is discarded (R101, R259). -/
def Device.forgetAskers (d : Device) (gone : Nat → Bool) : Device :=
  let req (r : StoreReq) : StoreReq := { r with askers := r.askers.filter fun a => !gone a.queue }
  { d with
    service := { d.service with closings := d.service.closings.filter fun c => !gone c.asker.queue }
    compute := { d.compute with lodes := tmap {} (fun _ x =>
      { x with asker := keepAsker gone x.asker, unloadAsker := keepAsker gone x.unloadAsker }) d.compute.lodes }
    deputy := { d.deputy with
      load := d.deputy.load.filter fun l => !gone l.queue
      overman := tmap {} (fun i x =>
        let lost := x.st == .loading && d.deputy.load.any fun l => gone l.queue && (queHalf l.queue).idx == i
        { x with asker := keepAsker gone x.asker, st := if lost then .absent else x.st }) d.deputy.overman }
    nvm := { d.nvm with current := d.nvm.current.map req, next := d.nvm.next.map req } }

end Sys2Proof.Machine
end

