-- ==== Sys2Proof/Machine/Service.lean ====
section
/-! DEFINITION. The shared operations of the inference service: contexts and their memory, delivery and ending of
requests, sampling, and admission (R271-R290). -/

namespace Sys2Proof.Machine

/-! ## Memory of the tiers (R210, R211, R225, R229) -/

/-- Tiles of 4 KiB of usable seam memory per half: 7.75 GiB (R210). -/
def seamTiles : Nat := 2031616
/-- Bytes of DRAM per half: 96 GiB (R211). -/
def dramBytes : Nat := 96 * 2 ^ 30

/-- The half a context of a lode on one half goes to. -/
def Lode.firstHalf (x : Lode) : Half := x.halves.headD .a
/-- A lode that declares both halves (R230). -/
def Lode.spans (x : Lode) : Bool := x.halves.length == 2
/-- Tiles a context of the lode takes in seam memory. -/
def Lode.ctxTiles (x : Lode) : Nat := (x.ctxKiB + 3) / 4

/-- Sessions with context on a half and tier, and requests with a working context there. -/
def Service.ctxLodes (v : Service) (h : Half) (inSeam : Bool) : List Nat :=
  (v.sessions.filter fun s => s.half == h && s.inSeam == inSeam).map (·.lode)
  ++ (v.requests.filter fun r => r.half == h && r.tier == (if inSeam then 1 else 2)).map (·.lode)

/-- Usable seam tiles of a half that hold nothing. -/
def Device.emptySeam (d : Device) (h : Half) : Nat :=
  seamTiles - (d.compute.lodes.map fun e => tget 0 e.2.seam h.idx).sum
    - ((d.service.ctxLodes h true).map fun l => (d.lode l).ctxTiles).sum

/-- Free usable seam tiles of a half: none while the SEAM domain is not ON. -/
def Device.freeSeam (d : Device) (h : Half) : Nat := if (d.part (seamPart h)).st ≠ .on then 0 else d.emptySeam h

/-- Free DRAM bytes of a half: none while the MEM domain is not ON. -/
def Device.freeDram (d : Device) (h : Half) : Nat :=
  if (d.part (memPart h)).st ≠ .on then 0
  else
    dramBytes - (d.compute.lodes.map fun e => tget 0 e.2.dram h.idx).sum
      - ((d.service.ctxLodes h false).map fun l => (d.lode l).ctxKiB * 1024).sum

/-- The half a context of a lode is placed on: for a spanning lode the one with more free seam memory, Half A when
equal (R229, R275). -/
def Device.contextHalf (d : Device) (l : Nat) : Half :=
  let x := d.lode l
  if x.spans then (if d.freeSeam .a < d.freeSeam .b then .b else .a) else x.firstHalf

/-- The tier a context gets: 1 seam, 2 DRAM, 0 neither (R229). -/
def Device.contextTier (d : Device) (l : Nat) : Nat :=
  let h := d.contextHalf l
  if (d.lode l).ctxTiles ≤ d.freeSeam h then 1
  else if (d.lode l).ctxKiB * 1024 ≤ d.freeDram h then 2
  else 0

/-! ## Requests -/

/-- A request is named by its queue and tag (R265). -/
def Request.is (r : Request) (q : Nat) (tag : W32) : Bool := r.queue == q && r.tag == tag

def Device.findRequest (d : Device) (q : Nat) (tag : W32) : Option Request :=
  d.service.requests.find? (·.is q tag)

def Device.modRequests (d : Device) (f : List Request → List Request) : Device :=
  { d with service := { d.service with requests := f d.service.requests } }

def Device.modSessions (d : Device) (f : List Session → List Session) : Device :=
  { d with service := { d.service with sessions := f d.service.sessions } }

/-- Replace one request by a new value of it. -/
def Device.putRequest (d : Device) (r : Request) : Device :=
  d.modRequests (replaceFirst (·.is r.queue r.tag) fun _ => r)

def Device.findSession (d : Device) (ident : W32) : Option Session := d.service.sessions.find? (·.ident == ident)

/-- Requests RUNNING on a lode, in the order of their batch rows. -/
def Device.batch (d : Device) (l : Nat) : List Request :=
  d.service.requests.filter fun r => r.lode == l && r.st == .running

/-- The requests of the batch that take part in the next step: those of a queue whose output half is full wait for space
(R102; DESIGN CHOICE, LOG 73). -/
def Device.stepBatch (d : Device) (l : Nat) : List Request := (d.batch l).filter fun r => !d.outFull r.queue

/-- Tokens a RUNNING or newly admitted request takes in its next step (R278). -/
def memberTokens (pol : Policy) (r : Request) : Nat :=
  if r.processed < r.input.length then satNat pol.chunk (r.input.length - r.processed) else 1

/-- The charged cost of a WAITING request (R281). -/
def chargedCost (pol : Policy) (r : Request) : Nat := satNat pol.stepTok (memberTokens pol r)

/-- Tokens per batch row of the next step, at most STEPTOK in all (R278). -/
def stepPlan (pol : Policy) : Nat → List Request → List Nat
  | _, [] => []
  | left, r :: rs =>
    let n := satNat left (memberTokens pol r)
    n :: stepPlan pol (left - n) rs

/-- The flags and header fields of a request's packets (R262), and whether one is its first (R295). -/
def Request.head (r : Request) (final : Bool) (p : OutPkt) : OutPkt :=
  { p with
    flags := BitVec.ofNat 16 (flag final 0 + flag r.retried 1)
    session := r.session
    lode := BitVec.ofNat 16 r.lode
    cls := BitVec.ofNat 8 r.cls
    first := if r.answered then none else some (r.cls, r.accepted) }

/-- A packet of a request goes to its queue's output; it answers the request. -/
def Device.pushFor (d : Device) (r : Request) (final : Bool) (p : OutPkt) : Device :=
  let d := d.pushOut r.queue (r.head final p)
  d.modRequests (replaceFirst (·.is r.queue r.tag) fun x => { x with answered := true })

/-- A packet is written: one that is the first answer of its REQUEST counts in the latency means of its class (R295). -/
def Device.noteLatency (d : Device) (q : Nat) (p : OutPkt) : Device :=
  match p.first with
  | none => d
  | some (c, at_) =>
    let v := d.service
    { d with service := { v with
        latSum := tset 0#64 c (tget 0#64 v.latSum c + (d.stamp q - at_)) v.latSum
        latCount := tset 0 c (tget 0 v.latCount c + 1) v.latCount } }

/-- Output tokens not yet delivered, in RESPONSE packets of at most 16,368 tokens (R263, R266). -/
def responseChunks (tb : W64) (tag : W32) : Nat → Nat → List W32 → List OutPkt
  | 0, _, _ => []
  | n + 1, i, ts =>
    if ts.isEmpty then []
    else responsePkt tb tag i (ts.take 16368) :: responseChunks tb tag n (i + 16368) (ts.drop 16368)

/-- Write a request's undelivered tokens; `final` marks the last packet. -/
def Device.deliver (d : Device) (r : Request) (final : Bool) : Device :=
  let ps := responseChunks r.produced r.tag (r.output.length / 16368 + 1) r.delivered (r.output.drop r.delivered)
  let last := ps.length - 1
  d.each ps.zipIdx fun d (p, i) => d.pushFor { r with answered := r.answered || decide (0 < i) } (final && i == last) p

/-- The session of a request keeps the tokens it has processed and produced (R276, R375). -/
def Device.keepContext (d : Device) (r : Request) : Device :=
  if r.session = 0#32 then d
  else
    d.modSessions <| replaceFirst (·.ident == r.session) fun s =>
      { s with context := s.context ++ r.input.take r.processed ++ r.output }

/-- The answer of a CANCEL or SESSION_CLOSE that waited for its requests; a closed session releases its context. -/
def Device.answerClosing (d : Device) (c : Closing) : Device :=
  let q := c.asker.queue
  let d := if c.session = 0#32 then d else d.modSessions fun ss => ss.filter fun s => s.ident != c.session
  let a := if c.session = 0#32 then c.ended else 0
  (d.pushOut q (statusPkt (d.stamp q) c.asker.seq 0 0 a 0)).freeCredit q c.asker.padded

/-- End the sessions that satisfy p, releasing their contexts (R277). -/
def Device.endSessions (d : Device) (p : Session → Bool) : Device :=
  d.modSessions fun ss => ss.filter fun s => !p s

/-- RESETTING lasts until no request of the queue is left (R259, R260). -/
def Device.finishReset (d : Device) (q : Nat) : Device :=
  let x := d.queue q
  if x.st = .resetting ∧ !(d.service.requests.any (·.queue == q)) then
    (d.endSessions (·.queue == q)).setQueue q { x with st := .disabled }
  else d

/-- Answer every CANCEL and SESSION_CLOSE none of whose requests is left (R277, R288). -/
def Device.settleClosings (d : Device) : Device :=
  let due (c : Closing) : Bool := c.waits.all fun t => !(d.service.requests.any (·.is c.asker.queue t))
  let cs := d.service.closings
  (Device.each { d with service := { d.service with closings := cs.filter fun c => !due c } } (cs.filter due))
    Device.answerClosing

/-- Take a request off the list; before it ran, its REQUEST packet's credit returns (R271). The last of a queue that is
RESETTING ends the reset. -/
def Device.dropRequest (d : Device) (r : Request) : Device :=
  let d := d.modRequests fun rs => rs.filter fun x => !x.is r.queue r.tag
  (if r.st = .running then d else d.freeCredit r.queue r.padded).settleClosings.finishReset r.queue

/-- A request that a CANCEL or SESSION_CLOSE waits for has ended CANCELLED: it counts (R288). -/
def Device.countCancelled (d : Device) (r : Request) : Device :=
  { d with service := { d.service with closings := d.service.closings.map fun c =>
      if c.asker.queue = r.queue ∧ c.waits.contains r.tag then { c with ended := c.ended + 1 } else c } }

/-- A request ends with its last RESPONSE (R287). -/
def Device.finishRequest (d : Device) (r : Request) : Device := ((d.deliver r true).keepContext r).dropRequest r

/-- A request ends with a STATUS that carries FINAL, after the tokens of completed steps (R288, R289). -/
def Device.endRequest (d : Device) (r : Request) (code detail : Nat) : Device :=
  let d := if r.st = .running then d.deliver r false else d
  let a := if code = 0x0002 && r.st == .running then r.output.length else 0
  let r := { r with answered := r.answered || (r.st == .running && decide (r.delivered < r.output.length)) }
  let d := d.pushFor r true (statusPkt (d.stamp r.queue) r.tag code detail a 0)
  let d := if code = 0x0010 then d else if r.st = .running then d.keepContext r else d
  (if code = 0x0002 then d.countCancelled r else d).dropRequest r

/-- End every request that satisfies p (R289). -/
def Device.endRequests (d : Device) (p : Request → Bool) (code : Nat) : Device :=
  d.each (d.service.requests.filter p) fun d r => d.endRequest r code 0

/-- The lode whose memory a session identifier's context lies in. -/
def Device.sessionLode (d : Device) (ident : W32) : Nat := ((d.findSession ident).map (·.lode)).getD 0

/-! ## Sampling (R284, R285) -/

/-- The 64-bit mixer of R285 for the i-th output token. -/
def mix64 (seed : W64) (i : Nat) : W64 :=
  let x := seed + BitVec.ofNat 64 (i + 1) * 0x9E3779B97F4A7C15#64
  let x := (x ^^^ (x >>> 30)) * 0xBF58476D1CE4E5B9#64
  let x := (x ^^^ (x >>> 27)) * 0x94D049BB133111EB#64
  x ^^^ (x >>> 31)

/-- u as a binary32 word: (x >> 40) / 2²⁴ (R285). -/
def uniform32 (seed : W64) (i : Nat) : W32 := w32 (packRound fmtF32 false false ((mix64 seed i).toNat / 2 ^ 40) (-24))

/-- Round a value to binary32, subnormals kept (R206). -/
def round32 (v : FVal) : W32 := w32 (fencode fmtF32 false (Config.nanPayload 0x20 0#32 0#32) v)

/-- a / b rounded to binary32. -/
def div32 (a b : W32) : W32 :=
  match val32 a, val32 b with
  | .fin na ma ea, .fin nb mb eb =>
    if mb = 0 then (if ma = 0 then round32 .nan else round32 (.inf (na != nb)))
    else
      let e := ea - eb
      w32 (packRatio fmtF32 (na != nb) (ma * 2 ^ e.toNat) (mb * 2 ^ (-e).toNat))
  | .inf na, .fin nb _ _ => round32 (.inf (na != nb))
  | .fin na _ _, .inf nb => round32 (.fin (na != nb) 0 0)
  | _, _ => round32 .nan

/-- Sum of a + b in binary32, subnormals kept. -/
def sum32 (a b : W32) : W32 := round32 (fadd (val32 a) (val32 b))

/-- Insert keeping an order; an element goes before the first that does not precede it. -/
def insertBy {α : Type} (before : α → α → Bool) (x : α) : List α → List α
  | [] => [x]
  | y :: ys => if before y x then y :: insertBy before x ys else x :: y :: ys

def sortBy {α : Type} (before : α → α → Bool) : List α → List α
  | [] => []
  | x :: xs => insertBy before x (sortBy before xs)

/-- The k-th addends of a sum in the free order of DESIGN CHOICE, LOG 8. -/
def rankOrder (n : Nat) : List Nat :=
  sortBy (fun i j => decide (Config.addRank i < Config.addRank j) || (Config.addRank i == Config.addRank j && decide (i < j)))
    (List.range n)

/-- Sum of binary32 words in the free order (DESIGN CHOICE, LOG 8). -/
def rankedSum (xs : List W32) : W32 :=
  (rankOrder xs.length).foldl (fun acc i => sum32 acc (xs.getD i 0#32)) 0#32

/-- A candidate token: index and binary32 weight. -/
abbrev Cand := Nat × W32

/-- Descending weight, ties by ascending index (R284). -/
def candBefore (x y : Cand) : Bool := lt32 y.2 x.2 || (!lt32 x.2 y.2 && decide (x.1 < y.1))

/-- The shortest prefix whose cumulative weight is at least p. -/
def nucleus (p : W32) : W32 → List Cand → List Cand
  | _, [] => []
  | acc, c :: cs =>
    let acc := sum32 acc c.2
    if lt32 acc p then c :: nucleus p acc cs else [c]

/-- The first candidate whose cumulative weight is greater than u; otherwise the last (R284, step 7). -/
def chooseCand (u : W32) : W32 → List Cand → Option Nat
  | _, [] => none
  | acc, c :: cs =>
    let acc := sum32 acc c.2
    if lt32 u acc then some c.1 else if cs.isEmpty then some c.1 else chooseCand u acc cs

/-- One token sampled from the logits of a batch row (R284); none when every logit is a NaN. -/
def sampleToken (r : Request) (logits : List W32) : Option Nat :=
  let cands : List Cand := ((logits.zipIdx).map fun (z, i) => (i, z)).filter fun c => val32 c.2 != .nan
  if cands.isEmpty then none
  else
    let best := (sortBy candBefore cands)
    if r.mode = 0#8 then best.head?.map (·.1)
    else
      let scaled := cands.map fun (i, z) => (i, div32 z r.temp)
      let useK := r.mode == 1#8 || r.mode == 3#8
      let useP := r.mode == 2#8 || r.mode == 3#8
      let kept := if useK then (sortBy candBefore scaled).take r.k else scaled
      let kept := sortBy (fun x y => decide (x.1 < y.1)) kept
      let top := ((sortBy candBefore kept).head?.map (·.2)).getD 0#32
      let exps := kept.map fun (i, z) => (i, w32 (fexp fmtF32 (round32 (fadd (val32 z) (fneg (val32 top)))).toNat))
      let total := rankedSum (exps.map (·.2))
      let probs := exps.map fun (i, e) => (i, div32 e total)
      let pick : List Cand :=
        if useP then
          let pre := nucleus r.p 0#32 (sortBy candBefore probs)
          let s := pre.foldl (fun acc c => sum32 acc c.2) 0#32
          pre.map fun (i, w) => (i, div32 w s)
        else probs
      chooseCand (uniform32 r.seed r.output.length) 0#32 pick

/-! ## Admission (R281) -/

/-- A WAITING request that an earlier request of its session holds back (R276). -/
def Device.heldBack (d : Device) (r : Request) : Bool :=
  r.session != 0#32 &&
    (d.service.requests.takeWhile fun x => !x.is r.queue r.tag).any fun x => x.queue == r.queue && x.session == r.session

/-- A request is offered: WAITING, not held back, its working context fits, and its queue's output has room (R102, R276, R281). -/
def Device.offered (d : Device) (l : Nat) (r : Request) : Bool :=
  r.lode == l && r.st == .waiting && !d.heldBack r && (r.session != 0#32 || d.contextTier l != 0) && !d.outFull r.queue

def Device.offeredOf (d : Device) (l cls : Nat) : List Request :=
  d.service.requests.filter fun r => d.offered l r && r.cls == cls

/-- The head of a queue in a class. -/
def Device.headOf (d : Device) (l cls q : Nat) : Option Request := (d.offeredOf l cls).find? (·.queue == q)

/-- Admission: the request enters RUNNING, its packet's credit returns, and a request without a session gets its
working context (R271, R276). -/
def Device.takeIn (d : Device) (r : Request) : Device :=
  let (tier, half) := if r.session = 0#32 then (d.contextTier r.lode, d.contextHalf r.lode) else (0, r.half)
  (d.putRequest { r with st := .running, tier, half }).freeCredit r.queue r.padded

/-- One admission pass in progress: the device, the lode's order state, free batch places F and token budget K. -/
structure AdmitPass where
  dev    : Device
  order  : Order
  places : Nat
  budget : Nat
  deriving DecidableEq, Repr

def AdmitPass.setClassDef (a : AdmitPass) (cls v : Nat) : AdmitPass :=
  { a with order := { a.order with classDef := tset 0 cls v a.order.classDef } }

def AdmitPass.setQueueDef (a : AdmitPass) (key v : Nat) : AdmitPass :=
  { a with order := { a.order with queueDef := tset 0 key v a.order.queueDef } }

def Policy.weight (p : Policy) : Nat → Nat
  | 0 => p.weights.1
  | 1 => p.weights.2.1
  | 2 => p.weights.2.2.1
  | _ => p.weights.2.2.2

/-- Admit from one queue while its head fits the deficits, the budget and the batch. -/
def admitQueue (pol : Policy) (l cls q : Nat) : Nat → AdmitPass → AdmitPass
  | 0, a => a
  | n + 1, a =>
    match a.dev.headOf l cls q with
    | none => a
    | some r =>
      let c := chargedCost pol r
      let dc := tget 0 a.order.classDef cls
      let dq := tget 0 a.order.queueDef (cls * 1024 + q)
      if c ≤ dc ∧ c ≤ dq ∧ c ≤ a.budget ∧ 0 < a.places then
        admitQueue pol l cls q n
          { dev := a.dev.takeIn r
            order := { a.order with
              classDef := tset 0 cls (dc - c) a.order.classDef
              queueDef := tset 0 (cls * 1024 + q) (dq - c) a.order.queueDef
              lastClass := cls
              lastQueue := tset 0 cls q a.order.lastQueue }
            places := a.places - 1
            budget := a.budget - c }
      else a

/-- Visit one queue of a class. -/
def visitQueue (pol : Policy) (l cls : Nat) (a : AdmitPass) (q : Nat) : AdmitPass :=
  let key := cls * 1024 + q
  let a := a.setQueueDef key (tget 0 a.order.queueDef key + pol.quantum * pol.weight cls)
  let a := admitQueue pol l cls q a.places a
  if (a.dev.headOf l cls q).isSome then a
  else a.setQueueDef key 0

/-- Numbers of a list rotated to start after one. -/
def after (last : Nat) (xs : List Nat) : List Nat :=
  xs.filter (fun x => decide (last < x)) ++ xs.filter (fun x => decide (x ≤ last))

/-- The queue deficits of a class return to 0 where the queue offers nothing (R281). -/
def AdmitPass.clearQueues (a : AdmitPass) (cls : Nat) (qs : List Nat) : AdmitPass :=
  { a with order := { a.order with
      queueDef := a.order.queueDef.filter fun e => e.1 / 1024 != cls || qs.contains (e.1 % 1024) } }

/-- Visit one class. -/
def visitClass (pol : Policy) (l : Nat) (a : AdmitPass) (cls : Nat) : AdmitPass :=
  let os := a.dev.offeredOf l cls
  if os.isEmpty then a.setClassDef cls 0
  else
    let a := a.clearQueues cls (os.map (·.queue))
    let a := a.setClassDef cls (tget 0 a.order.classDef cls + pol.quantum * pol.weight cls)
    let qs := after (tget 0 a.order.lastQueue cls) ((sortBy (fun x y => decide (x < y)) (os.map (·.queue))).dedup)
    let a := qs.foldl (visitQueue pol l cls) a
    if (a.dev.offeredOf l cls).isEmpty then
      a.setClassDef cls 0
    else a

/-- Some queue's head fits the remaining budget. -/
def AdmitPass.fits (pol : Policy) (l : Nat) (a : AdmitPass) : Bool :=
  [0, 1, 2, 3].any fun cls =>
    (a.dev.offeredOf l cls).any fun r =>
      (a.dev.headOf l cls r.queue).any fun hd => decide (chargedCost pol hd ≤ a.budget)

/-- Rounds of the pass until the batch is full or no head fits the budget. -/
def admitRounds (pol : Policy) (l : Nat) : Nat → AdmitPass → AdmitPass
  | 0, a => a
  | n + 1, a =>
    if a.places = 0 || !a.fits pol l then a
    else admitRounds pol l n ((after a.order.lastClass [0, 1, 2, 3]).foldl (visitClass pol l) a)

/-- Admission at a step boundary of a lode (R279, action 4). A round adds at least 16 tokens to a deficit and a cost is
at most 65,536, so 4,097 rounds let in at least one request. -/
def Device.admitWaiting (d : Device) (l : Nat) : Device :=
  let pol := tget {} d.service.lodePolicy l
  let batch := d.batch l
  let used := ((d.stepBatch l).map (memberTokens pol)).sum
  let waiting := (d.service.requests.filter fun r => r.lode == l && r.st == .waiting).length
  let a := admitRounds pol l (4097 * (waiting + 1))
    { dev := d, order := (d.lode l).order, places := pol.batchMax - batch.length, budget := pol.stepTok - used }
  a.dev.modLode l fun x => { x with order := a.order }

end Sys2Proof.Machine
end

