-- ==== Sys2Proof/Machine/Spenders.lean ====
section
/-! DEFINITION. Power tallies: what a spender of the ramp governor draws, holds and releases (R182-R189, R201).
Pools, levels and budgets count 0.5 mA (R183). -/

namespace Sys2Proof.Machine

/-- Cluster of spender k of a half. -/
def spenderCluster (h : Half) (k : Nat) : Nat := h.idx * 36 + k

/-- Budget B in force of a spender, in 0.5 mA (R186). -/
def Device.budget (d : Device) (h : Half) (k : Nat) : Nat := ((d.gov h).spender k).budget

/-- Refill of a spender's rail per AONCLK cycle and its gust (R183, R202). -/
def Device.refill (d : Device) (h : Half) (k : Nat) : Nat :=
  5 * (d.cp .a (govP h) (if k < 28 then 0x40 else 0x44) % 64)
def Device.gust (d : Device) (h : Half) (k : Nat) : Nat :=
  let w := d.cp .a (govP h) 0x48
  125 * (if k < 28 then w % 64 else w / 256 % 64)

/-- Lull enable and release limit per AONCLK cycle (R189, R202). -/
def Device.lullOn (d : Device) (h : Half) (k : Nat) : Bool :=
  (d.cp .a (govP h) 0x4C).testBit (if k < 28 then 0 else 1)
def Device.lullRate (d : Device) (h : Half) (k : Nat) : Nat :=
  let w := d.cp .a (govP h) 0x4C
  5 * (if k < 28 then w / 4 % 64 else w / 256 % 64)

/-- A spender's level falls to a target; a lull already under way toward it goes on (R188). -/
def Device.releaseTo (d : Device) (h : Half) (k target : Nat) : Device :=
  d.modSpender h k fun x =>
    if x.level ≤ target then { x with lull := none, need := none }
    else if !d.lullOn h k then { x with level := target, lull := none, need := none }
    else if x.lull.any (·.1 == target) then { x with need := none }
    else { x with lull := some (target, 0), need := none }

/-- The budget a unit fires under: B, and under the minimum budget no more than the level held, since no spender raises H
(R187, R201; DEDUCED, LOG 69). -/
def Device.ceiling (d : Device) (h : Half) (k : Nat) : Nat :=
  let x := (d.gov h).spender k
  if (d.gov h).minimum then min x.budget x.level else x.budget

/-- The level a unit of a given cost settles at: its cost, or the budget when it fires throttled (R187). -/
def Device.unitLevel (d : Device) (h : Half) (k cost : Nat) : Nat := min cost (d.ceiling h k)

/-- A unit fires at the level it settles at: it ends a lull there, or releases H to it; under the minimum budget a spender keeps
the level it holds until its step is done (R187, R188, R201). -/
def Device.settle (d : Device) (h : Half) (k eff : Nat) : Device :=
  let g := d.gov h
  if g.minimum then d.modSpender h k fun x => { x with lull := none, need := none }
  else if (g.spender k).lull.isSome then d.modSpender h k fun x => { x with lull := none, need := none, level := eff }
  else d.releaseTo h k eff

/-- A spender asks to fire a unit of a given cost (R185, R187, R188): whether it fires now, and what it drew. -/
def Device.draw (d : Device) (h : Half) (k cost : Nat) : Bool × Device :=
  let g := d.gov h
  let x := g.spender k
  let eff := d.unitLevel h k cost
  if d.ceiling h k = 0 ∧ x.level < cost then (false, d)
  else if eff ≤ x.level then (true, d.settle h k eff)
  else if eff - x.level ≤ x.pool then
    (true, d.modSpender h k fun x => { x with pool := x.pool - (eff - x.level), level := eff, need := none, lull := none })
  else (false, d.modSpender h k fun x => { x with pool := 0, level := x.level + x.pool, need := some eff, lull := none })

/-- Core cycles in 64 on which a throttled unit issues: m of R187; 64 for one that is not. -/
def Device.issueRate (d : Device) (h : Half) (k cost : Nat) : Nat :=
  let b := d.ceiling h k
  if cost ≤ b ∨ cost = 0 then 64 else max 1 (64 * b / cost)

/-- A spender after one AONCLK cycle: refill within the gust and B - H, a waiting unit's draw, a lull (R183, R185, R188, R201). -/
def Spender.cycle (x : Spender) (minimum : Bool) (refill gust lullRate : Nat) : Spender :=
  let x := { x with sumH := x.sumH + x.level, cycles := x.cycles + 1 }
  let x := if minimum then x else { x with pool := min (x.pool + refill) (min gust (x.budget - x.level)) }
  let x := match x.need with
    | none => x
    | some n =>
      if minimum then x
      else
        let take := min x.pool (n - x.level)
        let level := x.level + take
        { x with pool := x.pool - take, level, need := if n ≤ level then none else some n }
  match x.lull with
  | none => x
  | some (t, c) =>
    let level := max t (x.level - lullRate)
    { x with level, lull := if level = t then none else some (t, c + 1) }

/-- A spender fires null units in this cycle: under the lull, or during a ramp (R185, R188). -/
def Spender.fillsNull (x : Spender) : Bool := x.lull.isSome || (x.need.isSome && decide (0 < x.level))

/-- A budget comes into force: the pool never exceeds B - H (R183, R186). -/
def Spender.withBudget (x : Spender) (b : Nat) : Spender := { x with budget := b, pool := min x.pool (b - x.level) }

end Sys2Proof.Machine
end

