-- ==== Sys2Proof/Machine/Lodes.lean ====
section
/-! DEFINITION. Lode images: their layout and checks, placement, residence and loss (R217-R231, R90). -/

namespace Sys2Proof.Machine

/-! ## Reading an image (R217-R222) -/

/-- The n-byte little-endian field at an image offset. -/
def imgField (m : List Host.Cell) (a n : Nat) : Nat := leNat (getBytes m a n)

/-- The image offsets and counts of the header and service descriptor. -/
structure ImageHead where
  size     : Nat
  halves   : Nat
  tensors  : Nat
  streams  : Nat
  stepNs   : Nat
  ctxKiB   : Nat
  dirAt    : Nat
  progAt   : Nat
  graphAt  : Nat
  costAt   : Nat
  vocab    : Nat
  ctxCap   : Nat
  programs : Nat
  costs    : Nat
  deriving DecidableEq, Repr

/-- Header and descriptor of an image (R217, R219). -/
def imageHead (m : List Host.Cell) : ImageHead :=
  let hd := getBytes m 0 128
  { size := fieldAt hd 8 8, halves := fieldAt hd 6 1, tensors := fieldAt hd 16 4, streams := fieldAt hd 20 4
    stepNs := fieldAt hd 24 4, ctxKiB := fieldAt hd 28 4, dirAt := fieldAt hd 32 8, progAt := fieldAt hd 40 8
    graphAt := fieldAt hd 48 8, costAt := fieldAt hd 56 4 * 4096, vocab := fieldAt hd 68 4
    ctxCap := fieldAt hd 72 4, programs := fieldAt hd 76 4, costs := fieldAt hd 80 4 }

/-- The halves a header byte declares, Half A first (R217). -/
def halvesOf (n : Nat) : List Half := (if n % 2 = 1 then [.a] else []) ++ (if n / 2 % 2 = 1 then [.b] else [])

def halfOfByte (n : Nat) : Half := if n = 0 then .a else .b

/-- One tensor directory entry (R218). -/
def tensorAt (m : List Host.Cell) (at_ : Nat) : Tensor :=
  let e := getBytes m at_ 32
  { ident := w32 (fieldAt e 0 4), cls := fieldAt e 4 1, half := halfOfByte (fieldAt e 5 1), heat := fieldAt e 6 2
    tiles := fieldAt e 8 4, reads := fieldAt e 12 2, format := fieldAt e 14 2, offset := fieldAt e 16 8 }

/-- One tally-graph entry (R220). -/
def streamAt (m : List Host.Cell) (at_ : Nat) : Stream :=
  let e := getBytes m at_ 24
  { producer := BitVec.ofNat 16 (fieldAt e 4 2), consumer := BitVec.ofNat 16 (fieldAt e 6 2), depth := fieldAt e 8 1
    cross := decide (fieldAt e 9 1 % 2 = 1), perStep := fieldAt e 12 4, tensor := w32 (fieldAt e 16 4)
    space := fieldAt e 8 1 }

/-- One op word (R222). -/
def opAt (m : List Host.Cell) (at_ : Nat) : OpWord :=
  let e := getBytes m at_ 16
  { cls := BitVec.ofNat 16 (fieldAt e 0 2), engine := BitVec.ofNat 8 (fieldAt e 2 1)
    last := decide (fieldAt e 3 1 % 2 = 1), a := BitVec.ofNat 16 (fieldAt e 4 2), b := BitVec.ofNat 16 (fieldAt e 6 2)
    out := BitVec.ofNat 16 (fieldAt e 8 2), acc := BitVec.ofNat 16 (fieldAt e 10 2), param := w32 (fieldAt e 12 4) }

/-- A program's op words from its directory entry (R222). -/
def programAt (m : List Host.Cell) (at_ : Nat) : Program :=
  let e := getBytes m at_ 32
  { half := halfOfByte (fieldAt e 2 1)
    ops := (List.range (fieldAt e 4 4)).map fun i => opAt m (fieldAt e 8 8 + 16 * i) }

def OpWord.operation (o : OpWord) : Nat := o.cls.toNat / 256
def OpWord.inFmt (o : OpWord) : Nat := o.cls.toNat / 16 % 16
def OpWord.outFmt (o : OpWord) : Nat := o.cls.toNat % 16

/-! ## Checks at LOAD_END (R223) -/

/-- Half of an endpoint, its type and index (R220). -/
def endHalf (e : W16) : Nat := e.toNat / 0x8000
def endType (e : W16) : Nat := e.toNat / 0x1000 % 8
def endIndex (e : W16) : Nat := e.toNat % 0x1000

/-- Two ranges of (offset, length) share a byte. -/
def rangesMeet (x y : Nat × Nat) : Bool :=
  decide (0 < x.2 ∧ 0 < y.2 ∧ x.1 < y.1 + y.2 ∧ y.1 < x.1 + x.2)

def anyMeet : List (Nat × Nat) → Bool
  | [] => false
  | x :: xs => xs.any (rangesMeet x) || anyMeet xs

/-- Operations of R222. -/
def opKnown (n : Nat) : Bool := n == 1 || n == 2 || decide (0x10 ≤ n ∧ n ≤ 0x1C) || n == 0x20

/-- The engines, formats and streams an op word may name (R206, R207, R222). -/
def opFits (o : OpWord) (streams : Nat) : Bool :=
  let n := o.operation
  let i := o.inFmt
  let f := o.outFmt
  let matrix := decide (n < 0x10)
  let engine := if matrix then decide (o.engine.toNat < 2) else o.engine == 2#8 || o.engine == 3#8
  let formats :=
    if n = 1 then (i == 0 && f == 6) || (decide (1 ≤ i ∧ i ≤ 4) && f == 5)
    else if n = 2 then (i == 5 && decide (f ≤ 5)) || (i == 6 && decide (f ≤ 6))
    else if n = 0x1C then decide (i ≤ 6 ∧ f ≤ 6)
    else if n = 0x20 then decide (3 ≤ i ∧ i ≤ 5)
    else (i == 4 || i == 5) && f == i
  let stream (s : W16) := s == 0xFFFF#16 || decide (s.toNat < streams)
  opKnown n && engine && formats && stream o.a && stream o.b && stream o.out && decide (o.acc.toNat < 128)

/-- The op's streams belong to its program: inputs end at it, outputs begin at it (R223). -/
def opOwns (o : OpWord) (prog : Nat) (half : Half) (streams : List Stream) : Bool :=
  let here (e : W16) := endType e == 0 && endIndex e == prog && endHalf e == half.idx
  let inp (s : W16) := s == 0xFFFF#16 || (streams[s.toNat]?).any fun x => here x.consumer
  let out (s : W16) := s == 0xFFFF#16 || (streams[s.toNat]?).any fun x => here x.producer
  inp o.a && inp o.b && out o.out

/-- The parts of an image that its checks read. -/
structure ImageParts where
  head     : ImageHead
  tensors  : List Tensor
  streams  : List Stream
  programs : List Program
  costs    : List (Nat × Nat)
  deriving DecidableEq, Repr

def imageParts (m : List Host.Cell) : ImageParts :=
  let h := imageHead m
  { head := h
    tensors := (List.range h.tensors).map fun i => tensorAt m (h.dirAt + 32 * i)
    streams := (List.range h.streams).map fun i => streamAt m (h.graphAt + 24 * i)
    programs := (List.range h.programs).map fun i => programAt m (h.progAt + 32 * i)
    costs := (List.range h.costs).map fun i => (imgField m (h.costAt + 8 * i) 2, imgField m (h.costAt + 8 * i + 4) 4) }

/-- Signatures, versions, CRCs and reserved fields of everything but the service descriptor and the programs' CRCs. -/
def check1 (m : List Host.Cell) (p : ImageParts) : Bool :=
  let h := p.head
  let hd := getBytes m 0 64
  fieldAt hd 0 4 == 0x5EA310DE && fieldAt hd 4 2 == 1 && zerosAt hd 7 1 && decide (h.halves < 4 ∧ 0 < h.halves)
  && fieldAt hd 60 4 == (crc32c (hd.take 60)).toNat
  && decide (1 ≤ h.tensors ∧ h.tensors ≤ 65535 ∧ 1 ≤ h.streams ∧ h.streams ≤ 65535)
  && p.tensors.zipIdx.all (fun (t, i) =>
      let e := getBytes m (h.dirAt + 32 * i) 32
      zerosAt e 28 4 && fieldAt e 24 4 == (crc32c (getBytes m t.offset (t.tiles * 4096))).toNat
      && decide (t.cls ≤ 2 ∧ t.format ≤ 5))
  && (List.range h.streams).all (fun i =>
      let e := getBytes m (h.graphAt + 24 * i) 24
      decide (fieldAt e 9 1 < 2) && zerosAt e 10 2 && zerosAt e 20 4)
  && (List.range h.costs).all (fun i => imgField m (h.costAt + 8 * i + 2) 2 == 0)
  && p.programs.zipIdx.all (fun (g, i) =>
      let e := getBytes m (h.progAt + 32 * i) 32
      zerosAt e 3 1 && zerosAt e 20 12 && fieldAt e 0 2 == i
      && (List.range g.ops.length).all fun k => decide (imgField m (fieldAt e 8 8 + 16 * k + 3) 1 < 2))

/-- Every half named is declared. -/
def check2 (m : List Host.Cell) (p : ImageParts) : Bool :=
  let h := p.head
  let hs := halvesOf h.halves
  let ok (n : Nat) := decide (n < 2) && hs.contains (halfOfByte n)
  (List.range h.tensors).all (fun i => ok (imgField m (h.dirAt + 32 * i + 5) 1))
  && p.streams.all (fun s => ok (endHalf s.producer) && ok (endHalf s.consumer))
  && (List.range h.programs).all (fun i => ok (imgField m (h.progAt + 32 * i + 2) 1))

/-- Sections are aligned, lie within the image and do not overlap. -/
def check3 (m : List Host.Cell) (p : ImageParts) : Bool :=
  let h := p.head
  let words := p.programs.zipIdx.map fun (g, i) => (imgField m (h.progAt + 32 * i + 8) 8, 16 * g.ops.length)
  let progEnd := words.foldl (fun e w => max e (w.1 + w.2)) (h.progAt + 32 * h.programs)
  let sections := [(0, 128), (h.dirAt, 32 * h.tensors), (h.progAt, progEnd - h.progAt), (h.graphAt, 24 * h.streams),
    (h.costAt, 8 * h.costs)]
  let tiles := p.tensors.map fun t => (t.offset, 4096 * t.tiles)
  (sections.drop 1).all (fun s => decide (s.1 % 4096 = 0))
  && words.all (fun w => decide (w.1 % 4096 = 0 ∧ h.progAt + 32 * h.programs ≤ w.1))
  && (sections ++ words ++ tiles).all (fun s => decide (s.1 + s.2 ≤ h.size))
  && !anyMeet sections && !anyMeet words

/-- Every stream has D ≥ 1 and a consumer other than its producer (R216). -/
def check4 (p : ImageParts) : Bool := p.streams.all fun s => decide (1 ≤ s.depth) && s.producer != s.consumer

/-- Costs are 1-16,000 mA in ascending class, and every op has one (R221). -/
def check5 (p : ImageParts) : Bool :=
  p.costs.all (fun c => decide (1 ≤ c.2 ∧ c.2 ≤ 16000))
  && (p.costs.zip (p.costs.drop 1)).all (fun (x, y) => decide (x.1 < y.1))
  && p.programs.all (fun g => g.ops.all fun o => p.costs.any fun c => c.1 == o.cls.toNat)

/-- The service descriptor (R219). -/
def check6 (m : List Host.Cell) (p : ImageParts) : Bool :=
  let h := p.head
  let sd := getBytes m 64 64
  fieldAt sd 0 4 == 0x5EA35D01 && zerosAt sd 20 40 && fieldAt sd 60 4 == (crc32c (sd.take 60)).toNat
  && decide (2 ≤ h.vocab ∧ h.vocab ≤ 16777216 ∧ 1 ≤ h.ctxCap ∧ h.ctxCap ≤ 1048576 ∧ 1 ≤ h.programs ∧ h.programs ≤ 56
      ∧ 1 ≤ h.costs ∧ h.costs ≤ 65535)

/-- Programs per half, op counts and CRCs (R222). -/
def check7 (m : List Host.Cell) (p : ImageParts) : Bool :=
  [Half.a, Half.b].all (fun h => decide ((p.programs.filter (·.half == h)).length ≤ 28))
  && p.programs.zipIdx.all (fun (g, i) =>
      let e := getBytes m (p.head.progAt + 32 * i) 32
      decide (1 ≤ g.ops.length ∧ g.ops.length ≤ 4096)
      && fieldAt e 16 4 == (crc32c (getBytes m (fieldAt e 8 8) (16 * g.ops.length))).toNat)

def check8 (p : ImageParts) : Bool := p.programs.all fun g => g.ops.all fun o => opFits o p.head.streams

def check9 (p : ImageParts) : Bool :=
  p.programs.zipIdx.all fun (g, i) => g.ops.all fun o => opOwns o i g.half p.streams

/-- Endpoints and CROSS (R220). -/
def check10 (m : List Host.Cell) (p : ImageParts) : Bool :=
  let ok (e : W16) :=
    (endType e == 0 && decide (endIndex e < p.head.programs)
      && (p.programs[endIndex e]?).any fun g => g.half.idx == endHalf e)
    || (endType e == 1 && endIndex e == 0) || (endType e == 2 && decide (endIndex e < 4))
  p.streams.zipIdx.all fun (s, i) =>
    imgField m (p.head.graphAt + 24 * i) 4 == i && ok s.producer && ok s.consumer
    && s.cross == (endHalf s.producer != endHalf s.consumer)

/-- The first failing check of R223, numbered in the order of its list from 1; 0 when all pass (DEDUCED, LOG 11). -/
def imageCheck (m : List Host.Cell) : Nat :=
  let p := imageParts m
  let results := [check1 m p, check2 m p, check3 m p, check4 p, check5 p, check6 m p, check7 m p, check8 p, check9 p,
    check10 m p]
  match results.findIdx? (! ·) with
  | none => 0
  | some i => i + 1

/-! ## Bays of a lode -/

/-- The half an endpoint lies on. -/
def endOn (e : W16) : Half := if endHalf e = 0 then .a else .b

/-- The bay that runs a program of a lode. -/
def Lode.bayOf (x : Lode) (prog : Nat) : Option Nat := (x.programs.find? (·.1 == prog)).bind fun g => g.2.bay

/-- The bays of a lode's programs. -/
def Lode.bays (x : Lode) : List Nat := x.programs.filterMap (·.2.bay)

/-- A bay can run a program: its half's CORE domain is ON, it is enabled, and neither isolated nor retired (R233). -/
def Device.bayUsable (d : Device) (k : Nat) : Bool :=
  let b := d.bay k
  (d.part (corePart (bayHalf k))).st == .on && !b.isolated && !b.retired && bit (d.reg .a (bayP k) 0x10) 0

/-- The bays of a half. -/
def halfBays (h : Half) : List Nat := (List.range 28).map (h.idx * 28 + ·)

/-- Give every program of a lode a bay of its half that holds no other program of it: the lowest-numbered free one
(R222, R376; DESIGN CHOICE, LOG 9). -/
def Device.assignBays (d : Device) (progs : Tab Program) : Tab Program :=
  progs.foldl (fun acc (i, g) =>
    if g.bay.any (d.bayUsable ·) then acc
    else
      let taken := acc.filterMap fun e => if e.1 = i then none else e.2.bay
      let free := (halfBays g.half).find? fun k => d.bayUsable k && !taken.contains k
      acc.map fun e => if e.1 = i then (i, { g with bay := free }) else e) progs

/-- The streams of a lode at a step boundary (R213, R215). -/
def Stream.fresh (s : Stream) : Stream :=
  { s with space := s.depth, data := 0, flight := 0, tiles := [], spaceMsgs := 0, dataMsgs := 0, begun := 0, relay := [] }

def Lode.freshStreams (x : Lode) : Lode := { x with streams := tmap {} (fun _ s => s.fresh) x.streams, carry := [] }

/-- The bays that run a lode's programs fall idle, and release their levels (R188). -/
def Device.idleBays (d : Device) (l : Nat) : Device :=
  d.each ((d.lode l).bays.filter fun k => (d.bay k).slot == some l) fun d k =>
    (d.modBay k fun b => { b with slot := none, op := 0, done := false, firing := false, outTiles := [] }).releaseTo
      (bayHalf k) (k % 28) 0

/-- The step in progress is given up: bays fall idle, streams return to the counts of R213, no token of it stands
(R375-R377). -/
def Device.abandonStep (d : Device) (l : Nat) : Device :=
  (d.idleBays l).modLode l fun x => { x.freshStreams with stepping := false, sampled := [] }

/-! ## Loss and release -/

/-- Release a slot: its memory, sessions and bays; it reads EMPTY (R224, R231). -/
def Device.releaseLode (d : Device) (l : Nat) : Device :=
  let d := (d.abandonStep l).endSessions (·.lode == l)
  let d := d.setLode l {}
  { d with compute := { d.compute with placing := d.compute.placing.filter (· != l) } }

/-- The answer a load packet or an UNLOAD waits for. -/
def Device.answerAsker (d : Device) (x : Option Asker) (code detail a b : Nat) : Device :=
  match x with
  | none => d
  | some k =>
    let p : OutPkt := { statusPkt (d.stamp k.queue) k.seq code detail a b with lode := k.lode }
    (d.pushOut k.queue p).freeCredit k.queue k.padded

/-- A lode is lost: its requests end with a status, its sessions end, its slot reads EMPTY, and LODE_EVICTED goes out
with the Canary kind that caused it (R90, R232, R268, R376). -/
def Device.evictLode (d : Device) (h : Half) (l kind code : Nat) : Device :=
  let st := (d.lode l).st
  let asker := (d.lode l).asker
  let later := (d.lode l).unloadAsker
  let d := d.endRequests (·.lode == l) code
  let d := d.releaseLode l
  if st = .resident ∨ st = .unloading then
    (d.eventFrom h 0x000A kind 0 0 (BitVec.ofNat 16 l)).answerAsker asker 0x0000 0 0 0
  else (d.answerAsker asker 0x0010 4 0 0).answerAsker later 0x0000 0 0 0

/-- Slots that are not EMPTY. -/
def Device.usedSlots (d : Device) : List Nat := (d.compute.lodes.filter (·.2.st != .empty)).map (·.1)

/-- A half's seam content is lost: every lode with a tensor there, and every context there (R90). -/
def Device.loseSeam (d : Device) (h : Half) (kind : Nat := 0) : Device :=
  let hit := d.usedSlots.filter fun l => (d.lode l).tensors.any fun t => t.inSeam && t.half == h
  let d := d.each hit fun d l => d.evictLode h l kind 0x0020
  let ids := (d.service.sessions.filter fun s => s.half == h && s.inSeam).map (·.ident)
  let d := d.endRequests (fun r => ids.contains r.session || (r.tier == 1 && r.half == h)) 0x0020
  d.endSessions fun s => s.half == h && s.inSeam

/-- A half's DRAM content is lost: every lode with a tensor there, and every context there (R90). -/
def Device.loseDram (d : Device) (h : Half) (kind : Nat := 0) : Device :=
  let hit := d.usedSlots.filter fun l => (d.lode l).halves.contains h
  let d := d.each hit fun d l => d.evictLode h l kind 0x0020
  let ids := (d.service.sessions.filter fun s => s.half == h && !s.inSeam).map (·.ident)
  let d := d.endRequests (fun r => ids.contains r.session || (r.tier == 2 && r.half == h)) 0x0020
  d.endSessions fun s => s.half == h && !s.inSeam

/-! ## Placement (R227, R228) -/

/-- The tensors of a half that seam memory can hold: SEAM_PREFERRED ones are demoted from the coldest on, ties by
ascending identifier, until the rest fits. Answers the identifiers demoted. -/
def demoteLoop (free pin : Nat) : Nat → List Tensor → List W32
  | _, [] => []
  | pref, t :: ts => if pin + pref ≤ free then [] else t.ident :: demoteLoop free pin (pref - t.tiles) ts

/-- Colder first, then lower identifier (R227). -/
def colder (x y : Tensor) : Bool :=
  decide (x.heat < y.heat) || (x.heat == y.heat && decide (x.ident.toNat < y.ident.toNat))

/-- What placement does on one half: the tensors as placed and the demoted tiles, or none when the SEAM_PINNED ones
do not fit. -/
def placeHalf (free : Nat) (h : Half) (ts : List Tensor) : Option (List Tensor) :=
  let mine := ts.filter (·.half == h)
  let pin := ((mine.filter (·.cls == 0)).map (·.tiles)).sum
  let prefs := mine.filter (·.cls == 1)
  let out := demoteLoop free pin (prefs.map (·.tiles)).sum (sortBy colder prefs)
  if free < pin then none
  else some (ts.map fun t =>
    if t.half ≠ h then t
    else if t.cls = 0 then { t with inSeam := true }
    else if t.cls = 1 then (if out.contains t.ident then { t with cls := 2 } else { t with inSeam := true })
    else t)

/-- Tiles of the tensors in seam memory of a half. -/
def seamUse (h : Half) (ts : List Tensor) : Nat := ((ts.filter fun t => t.half == h && t.inSeam).map (·.tiles)).sum

/-- The derating estimate in 0.01 % (R228): the largest over the halves of demoted bytes x reads / DERATEBW, over the
nominal step time. 1 GB/s is one byte per ns. -/
def Device.derating (d : Device) (before after_ : List Tensor) (stepNs : Nat) : Nat :=
  let perHalf (h : Half) : Nat × Nat :=
    let bytes := ((before.zip after_).map fun (x, y) =>
      if x.half = h ∧ x.cls = 1 ∧ y.cls = 2 then x.tiles * 4096 * x.reads else 0).sum
    (bytes, fld (d.reg .a (memP (10 + h.idx)) 0x80) 15 0)
  if stepNs = 0 then 0
  else
    let est (h : Half) : Nat :=
      let (n, bw) := perHalf h
      if bw = 0 then 0 else (2 * n * 10000 + bw * stepNs) / (2 * bw * stepNs)
    max (est .a) (est .b)

/-- DRAM a lode needs on a half by its directory, in bytes (R227). -/
def dramNeed (h : Half) (ts : List Tensor) : Nat := ((ts.filter (·.half == h)).map (·.tiles * 4096)).sum

/-- Placement of a lode that passed its checks; `inl` is the CAPACITY detail of a failure. -/
def Device.placeLode (d : Device) (l : Nat) : Nat ⊕ Lode :=
  let x := d.lode l
  let seamOn := x.halves.all fun h => (d.part (seamPart h)).st == .on && (d.part (memPart h)).st == .on
  let dramOk := x.halves.all fun h =>
    decide (dramNeed h x.tensors ≤ tget 0 x.dram h.idx ∨ dramNeed h x.tensors - tget 0 x.dram h.idx ≤ d.freeDram h)
  let placed := x.halves.foldl (fun acc h => acc.bind fun ts => placeHalf (d.freeSeam h) h ts) (some x.tensors)
  if !seamOn then .inl 4
  else match placed with
    | none => .inl 1
    | some ts =>
      if !dramOk then .inl 2
      else
        let demoted := ((x.tensors.zip ts).map fun (a, b) => if a.cls = 1 ∧ b.cls = 2 then a.tiles * 4096 else 0).sum
        .inr { x with
          st := .resident
          tensors := ts
          seam := x.halves.foldl (fun t h => tset 0 h.idx (seamUse h ts) t) []
          dram := x.halves.foldl (fun t h => tset 0 h.idx (max (dramNeed h ts) (tget 0 t h.idx)) t) x.dram
          demoted
          derate := d.derating x.tensors ts x.stepNs
          asker := none }

/-- The step in progress has ended, or none was: release the slot and answer the UNLOAD (R231). -/
def Device.finishUnload (d : Device) (l : Nat) : Device :=
  let asker := (d.lode l).asker
  ((d.endRequests (·.lode == l) 0x0002).releaseLode l).answerAsker asker 0x0000 0 0 0

/-- UNLOAD of a RESIDENT slot: requests not in a batch end CANCELLED; the step in progress completes first (R231). -/
def Device.startUnload (d : Device) (l : Nat) (asker : Option Asker) : Device :=
  let d := d.endRequests (fun r => r.lode == l && r.st != .running) 0x0002
  let d := d.modLode l fun x => { x with st := .unloading, asker }
  if (d.lode l).stepping || (d.lode l).repeating then d else d.finishUnload l

end Sys2Proof.Machine
end

