-- ==== Sys2Proof/Machine/Regulator.lean ====
section
/-! DEFINITION. Shared operations of clusters and rails: set-points, commands and slew, cells, shedding, start and stop
(R104-R122, R176). -/

namespace Sys2Proof.Machine

/-- One millivolt, one VCODE step, one volt (R110). -/
def mV : Int := 128000
def vstep : Int := 160000
def volt : Int := 128000000

/-- The voltage of a VCODE (R110). -/
def vcode (c : Nat) : Volt := 400 * mV + c * vstep

/-- A CP value of a cluster's, a loop engine's or a rail's page. -/
def Device.clu (d : Device) (n off : Nat) : Nat := d.cp .a (cluP n) off
def Device.lpe (d : Device) (n off : Nat) : Nat := d.cp .a (lpeP n) off
def Device.ral (d : Device) (r off : Nat) : Nat := d.cp .a (ralP r) off

/-- FSW of a sync group (R123, R128). -/
def Device.fsw (d : Device) (g : Nat) : Nat := d.cp .a clkP (0x60 + 4 * g) % 64

/-- Programmed switching frequency in units of 1.25 MHz (R123). -/
def Device.fswUnits (d : Device) (g : Nat) : Nat := 64 + d.fsw g

/-! ## Cells -/

/-- A cell's trim in whole steps of 0.05 percentage points, to the nearest (R121). -/
def Cell.trimSteps (y : Cell) : Int := roundDiv y.trim (4096 * 840)

/-- The cell that holds slot 0 (R122). -/
def Cluster.slot0 (x : Cluster) : Nat := x.rot % 8

/-- The slot of a cell. -/
def Cluster.slotOf (x : Cluster) (c : Nat) : Nat := (c + 8 - x.rot % 8) % 8

/-- A cell is available: neither latched nor disabled (R106). -/
def Device.cellAvailable (d : Device) (n c : Nat) : Bool :=
  ((d.cluster n).cell c).st != .latched && !(d.clu n 0x60).testBit c

def Device.available (d : Device) (n : Nat) : List Nat := (List.range 8).filter (d.cellAvailable n)

/-- Active cells of a cluster. -/
def Cluster.activeCells (x : Cluster) : List Nat := (List.range 8).filter fun c => (x.cell c).st == .active

/-- Continuous rating in mA (R106). -/
def Device.rating (d : Device) (n : Nat) : Nat := 2000 * (d.available n).length

/-- A cluster that is switching. -/
def Device.clusterActive (d : Device) (n : Nat) : Bool := (d.cluster n).st == .active

/-- A cluster that can start: not DISABLED, ISOLATED or RETIRED (R109). -/
def Device.canStart (d : Device) (n : Nat) : Bool :=
  (d.cluster n).st == .ready && bit (d.reg .a (cluP n) 0x10) 0 && !(d.available n).isEmpty

/-- Order in which cells are shed relative to the anchor, the anchor last (R120). -/
def shedOrder (a : Nat) : List Nat := [7, 3, 5, 1, 6, 2, 4, 0].map fun i => (a + i) % 8

/-- A cell becomes active; its trim starts at 0 (R121). -/
def Cell.activate (y : Cell) : Cell := { y with st := .active, trim := 0, clamped := 0 }

/-- Activate the next idle available cell (R118, R120). -/
def Device.addCell (d : Device) (n : Nat) : Device :=
  let x := d.cluster n
  let a := x.anchor.getD x.slot0
  match (shedOrder a).reverse.find? fun c => (x.cell c).st == .idle && d.cellAvailable n c with
  | none => d
  | some c =>
    d.setCluster n { x.modCell c Cell.activate with sinceAdd := 0, sinceChange := 0, changed := true }

/-- Idle the next active cell. The anchor is the slot-0 cell when the full count is left, else the one in force (R118, R120). -/
def Device.shedCell (d : Device) (n : Nat) : Device :=
  let x := d.cluster n
  let full := (d.available n).all fun c => (x.cell c).st == .active
  let a := if full then x.slot0 else x.anchor.getD x.slot0
  match (shedOrder a).find? fun c => (x.cell c).st == .active with
  | none => d
  | some c => d.setCluster n { x.modCell c (fun y => { y with st := .idle }) with anchor := some a, sinceChange := 0, changed := true }

/-- MINCELLS and SHEDEN (R129). -/
def Device.minCells (d : Device) (n : Nat) : Nat := d.clu n 0x50 % 16
def Device.shedEnabled (d : Device) (n : Nat) : Bool := (d.clu n 0x50).testBit 4

/-- With SHEDEN clear, or fewer cells available than MINCELLS, a switching cluster runs every available cell (R118). -/
def Device.fillCells (d : Device) (n : Nat) : Device :=
  let x := d.cluster n
  let idle := (d.available n).filter fun c => (x.cell c).st == .idle
  if x.st ≠ .active ∨ idle.isEmpty ∨ (d.shedEnabled n ∧ d.minCells n ≤ (d.available n).length) then d
  else d.setCluster n { idle.foldl (fun y c => y.modCell c Cell.activate) x with
    sinceAdd := 0, sinceChange := 0, changed := true }

/-- The shedding evaluation of one outer sample, with SHEDEN set in a domain that is ON (R118). -/
def Device.shedEval (d : Device) (n : Nat) : Device :=
  let x := d.cluster n
  let k := x.activeCells.length
  let add : Int := (d.clu n 0x4C % 256 : Nat) * 50
  let drop : Int := (d.clu n 0x4C / 256 : Nat) * 50
  let hasIdle := (d.available n).any fun c => (x.cell c).st == .idle
  let fresh (y : Cluster) : Cluster := { y with sumI := 0, samples := 0, sinceAdd := satNat 16 (y.sinceAdd + 1) }
  if x.samples = 0 ∨ k = 0 then d.setCluster n (fresh x)
  else if x.sumI > add * x.samples * k ∧ hasIdle then
    let d := d.addCell n
    let y := d.cluster n
    d.setCluster n { y with sumI := 0, samples := 0 }
  else if x.sumI < drop * x.samples * k ∧ d.minCells n < k ∧ x.sumI < add * x.samples * (k - 1 : Nat)
      ∧ 16 ≤ x.sinceAdd ∧ !x.slew.busy then
    let d := d.shedCell n
    d.setCluster n (fresh (d.cluster n))
  else d.setCluster n (fresh x)

/-- CELLOFF takes hold: disabled cells stop, enabled ones wait to be added (R118, R129). -/
def Device.cellsTaken (d : Device) (n : Nat) : Device :=
  let off := d.clu n 0x60
  let x := d.cluster n
  let y := (List.range 8).foldl (fun (x : Cluster) c =>
    x.modCell c fun z =>
      if z.st = .latched then z
      else if off.testBit c then { z with st := .disabled, current := 0, inLimit := false }
      else if z.st = .disabled ∨ z.st = .stopped then { z with st := if x.st = .active then .idle else .stopped }
      else z) x
  let same := y.activeCells == x.activeCells
  let d := d.setCluster n { y with sinceChange := if same then x.sinceChange else 0, changed := x.changed || !same
                                   live := x.live || y != x }
  let d := if x.st = .active ∧ y.activeCells.isEmpty then d.addCell n else d
  d.fillCells n

/-! ## Budgets (R186) -/

/-- Budget B of a spender as R186 computes it, in 0.5 mA. -/
def Device.budgetNow (d : Device) (h : Half) (k : Nat) : Nat :=
  let n := spenderCluster h k
  let r := railOf n
  let active := ((railClusters r).filter d.clusterActive).length
  let g := d.gov h
  let imax := (d.cp h depP (0x100 + 4 * r) % 8192) * 100
  if active = 0 then 0
  else 2 * min (d.rating n) (imax / active) * g.bfrac / 256 - 2 * Config.quiescent n g.active

/-- The governor recomputes the budgets of some spenders. -/
def Device.setBudgets (d : Device) (h : Half) (ks : List Nat) : Device :=
  d.each ks fun d k => let b := d.budgetNow h k; d.modSpender h k (·.withBudget b)

/-- BFRAC changes, and every budget of the half with it. -/
def Device.setBfrac (d : Device) (h : Half) (f : Nat) : Device :=
  if f = (d.gov h).bfrac then d else (d.modGov h fun g => { g with bfrac := f }).setBudgets h (List.range 32)

/-- The highest BFRAC a half may take: BUDGET, and SAFE after Overman is lost (R200-R202). -/
def Device.topFraction (d : Device) (h : Half) : Nat :=
  let b := d.cp .a (govP h) 0x50 % 512
  if (d.gov h).safe then min b (d.cp .a (govP h) 0x54 % 512) else b

/-- BFRAC falls to a bound that has come below it. -/
def Device.capBfrac (d : Device) (h : Half) : Device := d.setBfrac h (min (d.gov h).bfrac (d.topFraction h))

/-- Half B's mirrors of device-wide settings take Half A's values (R202, R337). -/
def Device.copyMirrors (d : Device) : Device :=
  let d := d.each [0x58, 0x5C, 0x60] fun d off => d.setReg .b (govP .b) off (d.reg .a (govP .a) off)
  d.setReg .b (canP .b) 0x64 (d.reg .a (canP .a) 0x64)

/-! ## Set-points and commands -/

/-- The rail reference as a VCODE (R111). -/
def Device.railRef (d : Device) (r : Nat) : Nat :=
  if d.ral r 0x44 % 2 = 1 then (d.rail r).follow.code else d.ral r 0x40

/-- V_set of a cluster without offsets (R111). -/
def Device.vset (d : Device) (n : Nat) : Volt :=
  match d.clu n 0x5C % 4 with
  | 1 => vcode (d.railRef (railOf n))
  | 2 => vcode (d.rail (railOf n)).follow.code
  | _ => vcode (d.clu n 0x40)

/-- A command reaches a slew record (R115): an earlier one still in progress completes SUPERSEDED. -/
def Slew.start (s : Slew) (tag : W16) : Slew :=
  { s with tag, busy := true, done := false
           superseded := s.superseded || s.busy
           supCount := if s.busy then satInc s.supCount else s.supCount }

/-- A command that completes at once with status SUPERSEDED (R174). -/
def Slew.refuse (s : Slew) (tag : W16) : Slew :=
  { s with tag, superseded := true, supCount := satInc s.supCount }

/-- A voltage command reaches a cluster (R114, R115, R174). A cluster that is not switching has no reference to move. -/
def Device.command (d : Device) (n : Nat) (tag : W16) (target : Volt) (rate : Option Nat) : Device :=
  let x := d.cluster n
  if x.st ≠ .active then d
  else if x.prot.fallback then d.setCluster n { x with slew := x.slew.refuse tag }
  else d.setCluster n { x with slew := x.slew.start tag, target, seqRate := rate, settle := 0, reached := 0, near := 0 }

/-- Tags of R114. -/
def tagFollow : W16 := 0xFFFF#16
def tagHalt : W16 := 0xFFFE#16
def tagSequence : W16 := 0xFFFD#16

/-- A rail's command completes when every ACTIVE cluster outside local-sense fallback has completed it (R116, R174): with DONE, or
LATE if one of them was; with neither where none is left. -/
def Device.railComplete (d : Device) (r : Nat) : Device :=
  let x := d.rail r
  let cs := (railClusters r).filter fun n => d.clusterActive n && !(d.cluster n).prot.fallback
  if x.slew.busy && cs.all fun n => !(d.cluster n).slew.busy then
    let late := cs.any fun n => (d.cluster n).slew.late && !(d.cluster n).slew.done
    d.setRail r { x with slew := { x.slew with busy := false, done := !late && !cs.isEmpty, late := x.slew.late || late } }
  else d

/-- A command of a rail: its own record, and every cluster given. It completes at once where no cluster has it to complete
(R116, R174). -/
def Device.railCommand (d : Device) (r : Nat) (tag : W16) (cs : List (Nat × Volt)) (rate : Option Nat) : Device :=
  let d := d.modRail r fun x => { x with slew := x.slew.start tag }
  (d.each cs fun d (n, v) => d.command n tag v rate).railComplete r

/-- Move a reference one inner sample toward its target (R113): 512,000 / (64 + FSW) units of 7.8125 nV for each
0.625 mV/µs of the rate, to the nearest 1/256 of a VCODE step (how it rounds is DEDUCED, LOG 67). -/
def slewStep (fu rate : Nat) (vref target : Volt) : Volt :=
  let step := roundDiv (512000 * rate / fu : Nat) 625 * 625
  if vref < target then (if target - vref ≤ step then target else vref + step)
  else (if vref - target ≤ step then target else vref - step)

/-- The slew rate in force of a cluster, in 0.625 mV/µs. -/
def Device.slewRate (d : Device) (n : Nat) : Nat :=
  (d.cluster n).seqRate.getD (d.ral (railOf n) 0x48 % 64 + 1)

/-- A cluster's domain is sequencing: brake does not act (R160). -/
def Device.beginSequence (d : Device) (n : Nat) : Device :=
  d.modCluster n fun x => { x with seq := true, prot := { x.prot with brake := false } }

/-! ## Stop and start -/

/-- Every cell of a cluster holds both switches off, and its loop engine is idle with states 0 (R105, file 07). A pending
command completes with neither DONE nor LATE (R73). -/
def Device.stopCluster (d : Device) (n : Nat) : Device :=
  let x := d.cluster n
  let cells := (List.range 8).foldl (fun (y : Cluster) c =>
    if (y.cell c).st = .latched then y
    else y.modCell c fun z => { z with st := if z.st = .disabled then .disabled else .stopped, current := 0, inLimit := false, limitRun := 0, lastLimit := none,
                                       lastHard := none, reached64 := none }) x
  let st : ClusterState := if x.st = .active then .ready else x.st
  let d := d.setCluster n
    { cells with
      st, vref := 0, target := 0, offset := 0, seqRate := none, seq := false, settle := 0, reached := 0, near := 0, current := 0, duty := 0
      dutyNext := 0, anchor := none, sumI := 0, samples := 0, vtarget := 0, rotAge := 0, rotDue := false, changed := false
      slew := { x.slew with busy := false }
      prot := { x.prot with ovRun := 0, uvRun := 0, senseRun1 := 0, senseRun2 := 0, brakeRun := 0, brake := false,
                            crowbar := false, uv := false, ovRepeat := false } }
  let d := d.modEngine n fun e => { e with s0 := 0#32, s1 := 0#32, s2 := 0#32, preset := none, windup := false }
  let cap := d.capture (cluHalf n)
  if cap.owner = some n ∧ cap.st = .running then d.setCapture (cluHalf n) { cap with st := .full } else d

/-- Start into a charged output (R117, R174): the first duty, the compensator's preset, the reference at the start value,
every available cell active and the anchor at slot 0. A MANUAL engine that holds its duty holds the first one (R150). -/
def Device.startCluster (d : Device) (n : Nat) (vstart remote loc vin : Volt) : Device :=
  let x := d.cluster n
  let d0 : Nat := if vin ≤ 0 then 0 else (clampInt 0 1228 (roundDiv (vstart * 2048) vin.toNat)).toNat
  let cells := (List.range 8).foldl (fun (y : Cluster) c =>
    if d.cellAvailable n c then y.modCell c Cell.activate else y) x
  let fall := decide (150 * mV < remote - loc ∨ 150 * mV < loc - remote)
  let ref := roundDiv vstart 625 * 625
  let d := d.setCluster n
    { cells with
      st := .active, vref := ref, target := ref, seqRate := some 8, seq := true, near := 0, live := true, source := BitVec.ofNat 2 (d.clu n 0x5C), remote, loc, vin
      duty := d0, dutyNext := d0, anchor := some x.slot0, sinceAdd := 16, sinceChange := 0, plaus := 0, offset := 0
      prot := { x.prot with fallback := fall } }
  let d := d.modEngine n fun e =>
    { e with s0 := 0#32, s1 := 0#32, s2 := 0#32, preset := some d0, hold := d0, base := 0, sinceSat := 4096, windup := false }
  if fall then
    (d.perr .a (cluP n) (2 ^ 5)).report (cluHalf n) (unitReport (n % 36) 0x30 (cluP n))
  else d

/-! ## Lost clusters (R176) -/

/-- Half-local bays of the pair-slot over a CORE cluster (R107). -/
def pairBays (n : Nat) : List Nat :=
  let h := n / 36
  let k := n % 36
  [h * 28 + k / 2 * 2, h * 28 + k / 2 * 2 + 1]

/-- A rail with no cluster that is ACTIVE or READY: one that is DISABLED, ISOLATED or RETIRED is neither (R108, R167). -/
def Device.railDead (d : Device) (r : Nat) : Bool :=
  (railClusters r).all fun n => !d.clusterActive n && !d.canStart n

/-! ## PLL locks (R48) -/

/-- Set or clear a bit of CLK[0].LOCK (R48). -/
def Device.setLock (d : Device) (h : Half) (i : Nat) (on : Bool) : Device :=
  let m := w32 (2 ^ (16 * h.idx + i))
  let w := d.reg .a clkP 0x40
  d.setBoth clkP 0x40 (if on then w ||| m else w &&& ~~~m)

/-- The half of a sync group. -/
def syncHalf (g : Nat) : Half := if g < 2 then .a else .b

/-- A sync group's state: its regulator PLL is locked, to AONCLK or to SYNC_IN, but for while it glides or acquires (the spec
gives no instant of lock; DESIGN CHOICE, LOG 62). -/
def Device.setSyncState (d : Device) (g : Nat) (x : SyncGroup) : Device :=
  (d.setSync g x).setLock (syncHalf g) (5 + g % 2) (x.st == .free || x.st == .locked)

end Sys2Proof.Machine
end

