-- ==== Sys2Proof/Machine/Access.lean ====
section
/-! DEFINITION. Page states and the gate every direct register write passes: far half, domain, ownership, lock
(R22, R24, R26, R29-R36, R42, R84, R108, R233, R298). -/

namespace Sys2Proof.Machine

/-- The domain part a page's unit lies in; none for units of the always-on islands (R84; DEDUCED, LOG 10). -/
def pagePart (p : PageId) : Option Nat :=
  let h := pageHalf p.1 p.2
  match p.1 with
  | .bay => some (corePart h)
  | .mem => if 2 ≤ p.2 ∧ p.2 < 10 then some (memPart h) else some (seamPart h)
  | .que => some (svcPart h)
  | .lnk => some (linkPart h)
  | _ => none

/-- PSTAT.STATE while a domain is not ON (R84). -/
def DState.pageCode : DState → Option Nat
  | .on => none
  | .off | .inhibited | .tripped => some 0
  | .retain => some 1
  | .up | .down | .abandon | .resetting => some 2

/-- PSTAT.STATE of a page, from the copy of half h where it is global (R23, R84, R108, R233). -/
def Device.pageState (d : Device) (h : Half) (p : PageId) : Nat :=
  let n := p.2
  let en := bit (d.reg h p 0x10) 0
  let rst := bit (d.reg h p 0x10) 1
  let own : Nat :=
    match p.1 with
    | .clu =>
      match (d.cluster n).st with
      | .isolated => 6
      | .retired => 7
      | .active => 4
      | .ready => if rst then 2 else if (d.available n).isEmpty then 7 else if en then 3 else 5
    | .bay =>
      let b := d.bay n
      if rst then 2 else if !en then 5 else if b.retired then 7 else if b.isolated then 6
      else if b.slot.isSome || tget false d.power.selfwarm h.idx then 4 else 3
    | .lpe => if rst then 2 else if !en then 5 else if d.clusterActive n then 4 else 3
    | .ral => if rst then 2 else if !en then 5 else if (railClusters n).any d.clusterActive then 4 else 3
    | .que =>
      match (d.queue n).st with
      | .resetting => 2
      | .active => if en then 4 else 5
      | _ => if en then 3 else 5
    | _ => if rst then 2 else if en then 3 else 5
  match pagePart p with
  | none => own
  | some k => ((d.part k).st.pageCode).getD own

/-- Where a page's copies lie: the half of the page, or both halves of a global page outside SPLIT, or the copy of the
writer's home half in SPLIT (R22, R41). -/
def Device.copies (d : Device) (home : Half) (p : PageId) : List Half :=
  if p.1.isGlobal then (if d.apart then [home] else [.a, .b]) else [pageHalf p.1 p.2]

/-- The half whose copy a master reads (R22). -/
def copyOf (m : Master) (p : PageId) : Half := if p.1.isGlobal then homeOf m else pageHalf p.1 p.2

/-- Key of a page in the claims of a slot. -/
def pageKey (h : Half) (p : PageId) : Nat := regKey h p 0

/-- The slot that holds a claim on a page copy (R39). -/
def Device.claimedBy (d : Device) (h : Half) (p : PageId) : Option Nat :=
  (d.txn.slots.find? fun e => e.2.claims.any fun c => c.1 == pageKey h p).map (·.1)

/-- A page copy inside a commit window (R42). -/
def Device.pageLocked (d : Device) (h : Half) (p : PageId) : Bool :=
  d.txn.slots.any fun e => (e.2.phase == .checked || e.2.phase == .gone) && e.2.claims.any fun c => c.1 == pageKey h p

/-- A report of the register fabric about an access (R31, R321; unit 0x06E). -/
def accessReport (m : Master) (kind off : Nat) (write : Bool) : Report :=
  { unit := 0x6E, kind, addr := off, master := masterCode m, access := if write then 1 else 0 }

/-- An access error: a PERR bit on every copy, and a report to the Canary of the page's half, or for a global page of Half A,
of the requester's home half in SPLIT (the spec names no Canary for these; DESIGN CHOICE, LOG 60). -/
def Device.accessError (d : Device) (m : Master) (p : PageId) (off bitNo kind : Nat) (write : Bool) : Device :=
  let cs := d.copies (homeOf m) p
  let d := d.each cs fun d h => d.perr h p (2 ^ bitNo)
  d.report (cs.headD .a) (accessReport m kind (pageBase p + off) write)

/-- A CLASSERR bit of a page on every copy a master's write reaches. -/
def Device.classErr (d : Device) (m : Master) (p : PageId) (bitNo : Nat) : Device :=
  d.each (d.copies (homeOf m) p) fun d h => d.perr h p (2 ^ bitNo)

/-- The page lies on the far half and the crosscut does not carry the access there: the halves are apart (R36), or the
crosscut is not up before they are, which the model treats alike (R13; DESIGN CHOICE, LOG 59). -/
def Device.farPage (d : Device) (m : Master) (p : PageId) : Bool :=
  (d.apart || !d.crosscutUp) && !p.1.isGlobal && pageHalf p.1 p.2 != homeOf m

/-- The page's body cannot be reached: its STATE is OFF or RETAIN and it is not held in the island (R35). -/
def Device.bodyOff (d : Device) (h : Half) (p : PageId) (off : Nat) : Bool :=
  decide (0x40 ≤ off) && !aonBody p.1 && decide (d.pageState h p ≤ 1)

/-- POWN lets a master write a page; Deputy always may (R26). -/
def Device.owns (d : Device) (m : Master) (p : PageId) : Bool :=
  let w := d.reg (copyOf m p) p 0x1C
  match m with
  | .hosta => bit w 0
  | .hostb => bit w 1
  | .ovm _ => bit w 2
  | .dep _ => true
  | .twi => bit w 4

def isDeputy (m : Master) : Bool := match m with
  | .dep _ => true
  | _ => false

def isOvm (m : Master) : Bool := match m with
  | .ovm _ => true
  | _ => false

/-- A host port that is not the home port of the queue (R250, R261). -/
def foreignPort (m : Master) (q : Nat) : Bool :=
  match m with
  | .hosta => queHalf q == .b
  | .hostb => queHalf q == .a
  | _ => false

/-- Registers one kind of master alone may write, whatever POWN says (R26, R37, R202, R250, R261, R298, R311). -/
def soleWriter (m : Master) (p : PageId) (off : Nat) : Bool :=
  if off = 0x1C then isDeputy m
  else match p.1 with
    | .tmb | .dep | .canj => isDeputy m
    | .gov => if off = 0x54 then isDeputy m else true
    | .twi =>
      if p.2 = 1 ∧ (off = 0x44 ∨ off = 0x48) then isDeputy m
      else if p.2 = 1 ∧ (off = 0x4C ∨ off = 0x50) then isOvm m else true
    | .ovm => if off = 0x44 ∨ off = 0x48 ∨ off = 0x54 then isOvm m else true
    | .que =>
      if off = 0x50 ∨ off = 0x54 then
        (m == .hosta && queHalf p.2 == .a) || (m == .hostb && queHalf p.2 == .b)
      else !foreignPort m p.2
    | .txn =>
      if 0x40 ≤ off ∧ off < 0xE0 then (off - 0x40) / 0x20 == slotOf m else true
    | _ => true

/-- An access of this master is held: what it sends later is held behind it (R30). -/
def Device.holding (d : Device) (m : Master) : Bool := d.txn.held.any fun x => x.master == m

def Device.hold (d : Device) (x : Access) : Device := { d with txn := { d.txn with held := d.txn.held ++ [x] } }

/-- One aligned write of a word. -/
def wordWrite (m : Master) (off : Nat) (v : W32) : Access :=
  { master := m, offset := BitVec.ofNat 24 off, write := some v, oneDword := true, poisoned := false }

/-- A read of a register with a command of its own: nothing where the master's path is down, held behind what its master has
held (R30). -/
def Device.ordered (d : Device) (m : Master) (off : Nat) (act : Device → Device) : Device :=
  if !d.reaches m then d
  else if d.holding m then
    d.hold { master := m, offset := BitVec.ofNat 24 off, write := none, oneDword := true, poisoned := false }
  else act d

/-- A direct write's passage: refused with its effects, held behind a commit window, or let through. -/
inductive Passage where
  | refused (d : Device)
  | held (d : Device)
  | open
  deriving DecidableEq, Repr

/-- The checks of a direct write before its own rule: far half, domain, sole writer, POWN, lock (R31, R35, R36, R42). -/
def Device.passage (d : Device) (m : Master) (p : PageId) (off : Nat) (v : W32) : Passage :=
  let h := copyOf m p
  if d.farPage m p then
    .refused (d.report (homeOf m) (accessReport m 0x09 (pageBase p + off) true))
  else if d.bodyOff h p off then .refused (d.accessError m p off 22 0x08 true)
  else if !soleWriter m p off || !d.owns m p then .refused (d.accessError m p off 17 0x03 true)
  else if d.pageLocked h p then
    .held (d.hold (wordWrite m (pageBase p + off) v))
  else .open

/-- A direct write to a register with a command of its own: nothing where the master's path is down, held behind what its
master has held, else passed through the gate and acted on; an action that accepts the write counts in PSEQ on every copy
written (R27, R30). -/
def Device.guarded (d : Device) (m : Master) (p : PageId) (off : Nat) (v : W32) (act : Device → Bool × Device) : Device :=
  if !d.reaches m then d
  else if d.holding m then d.hold (wordWrite m (pageBase p + off) v)
  else match d.passage m p off v with
  | .refused d => d
  | .held d => d
  | .open =>
    let (ok, d') := act d
    if ok then d'.each (d.copies (homeOf m) p) fun d h => d.bumpSeq h p else d'

/-! ## Stored pairs (R33) -/

/-- A stored pair of a page is found inconsistent. -/
def Device.pairError (d : Device) (h : Half) (p : PageId) (off : Nat) (r : Report) : Device :=
  (d.perr h p (2 ^ 23)).report h { r with kind := 0x06, addr := pageBase p + off }

/-- A unit checks the stored pairs of a page's CP registers as it uses them. -/
def Device.checkStored (d : Device) (h : Half) (p : PageId) : Device :=
  let off (key : Nat) : Nat := key - regKey h p 0
  let bad := d.regs.filter fun e => decide (regKey h p 0x40 ≤ e.1 ∧ e.1 < regKey h p 0x1000) && !cpOk e.2
    && (findRow p (off e.1)).any fun r => r.1.cp
  d.each bad fun d e => d.pairError h p (off e.1) { unit := unitOf p, kind := 0x06, access := 6 }

end Sys2Proof.Machine
end

