-- ==== Sys2Proof/Machine/Engine.lean ====
section
/-! DEFINITION. What a loop engine computes: compensators, presets, injection, capture, plausibility, and the counters
its cluster's protections read (R131-R141, R150-R155, R158-R173). -/

namespace Sys2Proof.Machine

/-! ## Compensator sections (R133-R135, R151) -/

/-- ±131,071 (R134). -/
def sat18 (i : Int) : Int := clampInt (-131071) 131071 i

/-- An arithmetic right shift with the rounding of R134. -/
def shiftR (p : Int) (e : Nat) : Int := if e = 0 then p else (p + 2 ^ (e - 1)) / (2 ^ e : Nat)

/-- A section's coefficients: block-floating mantissas and exponent, or binary32 words. -/
structure Section where
  b0  : W32
  b1  : W32
  a1  : W32
  exp : Nat
  deriving DecidableEq, Repr

def mant (w : W32) : Int := toSigned 18 w.toNat

/-- One block-floating section: input and state to output and state; and whether the output saturated (R134). -/
def sectionBF (c : Section) (x s : Int) : Int × Int × Bool :=
  let raw := shiftR (mant c.b0 * x) c.exp + s
  let y := sat18 raw
  (y, sat18 (shiftR (mant c.b1 * x + mant c.a1 * y) c.exp), decide (raw ≠ y))

/-- 16.0 in binary32 (R135). -/
def sixteen32 : W32 := 0x41800000#32

/-- One binary32 section with its clamps (R135). -/
def sectionFP (c : Section) (x s : W32) : W32 × W32 × Bool :=
  let raw := add32 (mul32 c.b0 x) s
  let y := clamp32 sixteen32 raw
  (y, clamp32 sixteen32 (add32 (mul32 c.b1 x) (mul32 c.a1 y)), raw != y)

/-- A cascade in block floating: the output, the new states, whether any section output saturated. -/
def cascadeBF : List (Section × Int) → Int → Int × List Int × Bool
  | [], x => (x, [], false)
  | (c, s) :: cs, x =>
    let (y, s', sat) := sectionBF c x s
    let (z, ss, sat') := cascadeBF cs y
    (z, s' :: ss, sat || sat')

/-- A cascade in binary32. -/
def cascadeFP : List (Section × W32) → W32 → W32 × List W32 × Bool
  | [], x => (x, [], false)
  | (c, s) :: cs, x =>
    let (y, s', sat) := sectionFP c x s
    let (z, ss, sat') := cascadeFP cs y
    (z, s' :: ss, sat || sat')

/-- Output targets of the sections for a target of the last, first section first (R151, step 1), in block floating. -/
def targetsBF (t : Int) : List Section → List Int
  | [] => []
  | c :: rest =>
    -- `rest` lists the sections before c, last first
    let den := mant c.b0 + mant c.b1
    let one : Int := 2 ^ c.exp
    let prev : Int :=
      if mant c.a1 = one ∨ den = 0 then 0
      else sat18 (roundDiv (t * (one - mant c.a1) * (if den < 0 then -1 else 1)) den.natAbs)
    targetsBF prev rest ++ [t]

def targetsFP (t : W32) : List Section → List W32
  | [] => []
  | c :: rest =>
    let den := add32 c.b0 c.b1
    let prev : W32 :=
      if feq (val32 c.a1) (val32 0x3F800000#32) || fisZero (val32 den) then 0#32
      else
        let num := mul32 t (sub32 0x3F800000#32 c.a1)
        match val32 num, val32 den with
        | .fin na ma ea, .fin nb mb eb =>
          let e := ea - eb
          ratio32 ((if na != nb then -1 else 1) * (ma * 2 ^ e.toNat : Nat)) (mb * 2 ^ (-e).toNat)
        | _, _ => 0#32
    targetsFP prev rest ++ [t]

/-- The preset's pass from section 0 forward (R151, steps 2 and 3): new states. -/
def presetBF : List (Section × Int) → Int → List Int
  | [], _ => []
  | (c, t) :: cs, x => sat18 (shiftR (mant c.b1 * x + mant c.a1 * t) c.exp) :: presetBF cs t

def presetFP : List (Section × W32) → W32 → List W32
  | [], _ => []
  | (c, t) :: cs, x => clamp32 sixteen32 (add32 (mul32 c.b1 x) (mul32 c.a1 t)) :: presetFP cs t

/-! ## Registers of an engine (R156) -/

structure EngineCfg where
  order  : Nat
  fp     : Bool
  manual : Bool
  bank   : Nat
  deriving DecidableEq, Repr

def Device.engineCfg (d : Device) (n : Nat) : EngineCfg :=
  let c := d.lpe n 0x40
  { order := c % 2, fp := c.testBit 1, manual := c.testBit 2, bank := c / 8 % 2 }

/-- The sections in use (R141). -/
def Device.sections (d : Device) (n : Nat) : List Section :=
  let c := d.engineCfg n
  (List.range (2 + c.order)).map fun s =>
    let base := c.bank * 0x100 + 0x10 * s
    if c.fp then
      { b0 := d.reg .a (lpeP n) (0xC0 + base), b1 := d.reg .a (lpeP n) (0xC4 + base)
        a1 := d.reg .a (lpeP n) (0xC8 + base), exp := 0 }
    else
      { b0 := d.reg .a (lpeP n) (0x80 + base), b1 := d.reg .a (lpeP n) (0x84 + base)
        a1 := d.reg .a (lpeP n) (0x88 + base), exp := fld (d.reg .a (lpeP n) (0x8C + base)) 5 0 }

def Engine.states (e : Engine) : List W32 := [e.s0, e.s1, e.s2]

def Engine.setStates (e : Engine) (ws : List W32) : Engine :=
  { e with s0 := ws.getD 0 0#32, s1 := ws.getD 1 0#32, s2 := ws.getD 2 0#32 }

/-- What one computation gives: the duty command before injection and clamp (in 1/2048), the new states, saturation. -/
structure Computed where
  cmd    : Int
  states : List W32
  sat    : Bool
  deriving DecidableEq, Repr

/-- 0.640 V in binary32 (R135). -/
def err32 : W32 := ratio32 64 100

/-- The error in counts of 1/256 VCODE, saturated (R134). -/
def errCounts (e : Volt) : Int := sat18 (roundDiv e 625)

/-- One computing sample in AUTO (R133-R136); `preset` gives the target duty of R151. -/
def Device.compensate (d : Device) (n : Nat) (e : Volt) (preset : Option Nat) : Computed :=
  let eng := d.engine n
  let secs := d.sections n
  if (d.engineCfg n).fp then
    let x := clamp32 err32 (ratio32 e 128000000)
    match preset with
    | none =>
      let (y, ss, sat) := cascadeFP (secs.zip eng.states) x
      { cmd := scaleRound32 y 2048, states := ss, sat }
    | some k => { cmd := k, states := presetFP (secs.zip (targetsFP (ratio32 k 2048) secs.reverse)) x, sat := false }
  else
    let x := errCounts e
    match preset with
    | none =>
      let (y, ss, sat) := cascadeBF (secs.zip (eng.states.map fun w => toSigned 32 w.toNat)) x
      { cmd := (y + 32) / 64, states := ss.map fun i => w32 (ofSigned 32 i), sat }
    | some k =>
      { cmd := k
        states := (presetBF (secs.zip (targetsBF (k * 64) secs.reverse)) x).map fun i => w32 (ofSigned 32 i)
        sat := false }

/-! ## Injection (R154) -/

/-- sin(2π p / 2³²) x 2⁴⁰ for a phase in the first quarter, by its Taylor series. -/
def sinTerms : Nat → Int → Int → Int → Int → Int
  | 0, _, _, _, acc => acc
  | k + 1, x2, term, i, acc =>
    let term := -(term * x2 / 2 ^ 40) / (2 * i * (2 * i + 1))
    sinTerms k x2 term (i + 1) (acc + term)

/-- 2π x 2⁴⁰. -/
def twoPi : Int := 6908435304715

/-- sin(2π p / 2³²) x 2⁴⁰. -/
def sinePhase (p : W32) : Int :=
  let u := p.toNat
  let q := u / 2 ^ 30
  let r := u % 2 ^ 30
  let a : Nat := if q % 2 = 0 then r else 2 ^ 30 - r
  let x : Int := twoPi * a / 2 ^ 32
  let s := sinTerms 10 (x * x / 2 ^ 40) x 1 x
  if q < 2 then s else -s

/-- The signal of the present computing sample as a voltage, and the engine after it (R154). -/
def Device.inject (d : Device) (n : Nat) : Volt × Engine :=
  let e := d.engine n
  let w := d.reg .a (lpeP n) 0x50
  let amp : Int := (fld w 15 8 : Nat) * 16000
  let mode : Nat := if (d.engineCfg n).fp then 4 else 1
  match fld w 1 0 with
  | 1 =>
    let v := roundDiv (sinePhase e.phase * amp) (2 ^ 40)
    -- sample rate f_sw / 8 (or / 32): (64 + FSW) x 1.25 MHz / 8
    let rate := d.fswUnits (syncOf n) * 156250 / mode
    let inc := fld (d.reg .a (lpeP n) 0x54) 20 0 * 2 ^ 32 / rate
    (v, { e with phase := e.phase + w32 inc, injecting := true, inj := v })
  | 2 =>
    let v := if e.prbs.getLsbD 10 then amp else -amp
    let last := decide (fld w 23 16 ≤ e.chips)
    let next := (e.prbs <<< 1) ||| (if e.prbs.getLsbD 10 != e.prbs.getLsbD 8 then 1#11 else 0#11)
    (v, { e with
          prbs := if last then next else e.prbs
          chips := if last then 0 else e.chips + 1
          injecting := true, inj := v })
  | _ => (0, { e with injecting := false, inj := 0, phase := 0#32, prbs := 0x7FF#11, chips := 0 })

/-! ## Load line, limits and judged quantities -/

/-- Limit ILIM in 1/16 mA (R104). -/
def Device.ilim (d : Device) (n : Nat) : Nat := 24000 + 1000 * (d.clu n 0x48 % 64)

/-- Half the ripple current that a cell predicts for the present period from its VIN and output: V (VIN - V) / VIN x T / 2L with
L = 1.8 nH, as a fraction of 1/16 mA (R104). -/
def Device.halfRipple (d : Device) (n : Nat) : Int × Int :=
  let x := d.cluster n
  let v := clampInt 0 x.vin x.loc
  if x.vin ≤ 0 then (0, 1) else (v * (x.vin - v) * 312500, 9 * (max 1 (d.sync (syncOf n)).freq : Nat) * x.vin)

/-- A current in mA exceeds a limit and the half ripple, both fractions of 1/16 mA (R104). -/
def exceeds (current : MilliAmp) (limit ripple : Int × Int) : Bool :=
  decide (limit.1 * ripple.2 + ripple.1 * limit.2 < current * 16 * limit.2 * ripple.2)

/-- The cluster is in fold-back: V_local below 0.8 V_target, with V_target at least 0.100 V (R162). -/
def Cluster.foldback (x : Cluster) : Bool := decide (100 * mV ≤ x.vtarget ∧ 10 * x.loc < 8 * x.vtarget)

/-- k x ILIM as a fraction (numerator in 1/16 mA x denominator) (R162). -/
def Device.foldLimit (d : Device) (n : Nat) : Int × Int :=
  let x := d.cluster n
  let i : Int := d.ilim n
  if !x.foldback then (i, 1)
  else if 10 * x.loc ≤ 3 * x.vtarget then (3 * i, 10)
  else (i * (140 * x.loc - 12 * x.vtarget), 100 * x.vtarget)

/-- The voltage regulated and judged: remote sense, or the local one in fallback (R131, R173). -/
def Cluster.sensed (x : Cluster) : Volt := if x.prot.fallback then x.loc else x.remote

/-- The reference protections compare with: the instantaneous reference while the domain is sequencing (R117, R168). -/
def Device.judgeRef (d : Device) (n : Nat) : Volt :=
  let x := d.cluster n
  if x.seq then x.vref else x.vtarget

/-- Over-voltage condition of one base sample (R168). -/
def Device.ovSample (d : Device) (n : Nat) : Bool :=
  let x := d.cluster n
  let vt := d.judgeRef n
  let ovm : Int := (d.clu n 0x58 / 8 % 32 : Nat) * 800000
  let hard := decide (vt + ovm + 50 * mV < x.loc)
  hard || (!x.prot.fallback && decide (vt + ovm < x.remote ∧ 2 * vt + ovm < 2 * x.loc))

/-- Under-voltage condition of one base sample (R172). -/
def Device.uvSample (d : Device) (n : Nat) : Bool :=
  decide ((d.cluster n).sensed < d.judgeRef n - (d.clu n 0x64 % 64 : Nat) * (5 * mV))

/-- The two sense-loss conditions of one base sample (R173). -/
def Device.senseSample (d : Device) (n : Nat) : Bool × Bool :=
  let x := d.cluster n
  let vt := d.judgeRef n
  (decide (vt + 150 * mV < x.remote ∧ x.loc - vt ≤ 50 * mV ∧ vt - x.loc ≤ 50 * mV), decide (x.loc + 200 * mV < x.remote))

/-- The duty that an active cell applies: its cluster's command and its own trim of 0.05-point steps, in the range of the command
(R105, R121; how the sum comes to whole steps of 1/2048 is DEDUCED, LOG 67). -/
def Cluster.cellDuty (x : Cluster) (c : Nat) : Nat :=
  (clampInt 0 1228 (x.duty + roundDiv ((x.cell c).trimSteps * 128) 125)).toNat

/-- What the two switches of a cell do. -/
inductive Switches where
  | off | low | pwm (duty : Nat)
  deriving DecidableEq, Repr

/-- The switches of a cell: both off unless it is active, and in brake; the low-side switch on in a crowbar while the current has
not fallen below -ILIM (R105, R158, R169). -/
def Device.switches (d : Device) (n c : Nat) : Switches :=
  let x := d.cluster n
  let y := x.cell c
  if x.st ≠ .active ∨ y.st ≠ .active then .off
  else if x.prot.crowbar then (if y.current * 16 < -(d.ilim n : Int) then .off else .low)
  else if x.prot.brake then .off
  else .pwm (x.cellDuty c)

/-- TMODE: 1 is BRAKE (R129). -/
def Device.brakeMode (d : Device) (n : Nat) : Bool := (d.clu n 0x58).testBit 8

/-- A brake that acts ends where a commit leaves the cluster in LINEAR or MANUAL, in which brake never acts (R160). -/
def Device.brakeEnd (d : Device) (n : Nat) : Device :=
  let x := d.cluster n
  if x.prot.brake && (!d.brakeMode n || (d.engineCfg n).manual) then
    d.setCluster n { x with prot := { x.prot with brake := false, brakeHold := 16 } }
  else d

/-- BRKM (R158). -/
def Device.brakeMargin (d : Device) (n : Nat) : Int := (d.clu n 0x64 / 256 % 64 : Nat) * vstep

/-- The plausibility residual (R152). -/
def Device.residual (d : Device) (n : Nat) : Int :=
  let x := d.cluster n
  let w := d.reg .a (lpeP n) 0x48
  let model := roundDiv ((x.duty : Int) * x.vin * (fld w 9 0 : Nat)) (2048 * 1024) - x.current * 4 * (fld w 25 16 : Nat)
  x.loc - model

/-! ## Capture (R155) -/

/-- A running capture records a sample of its owner every DEC + 1 computing samples; an armed one with TRIG 0b00 starts at the first
injected sample. -/
def Device.captureSample (d : Device) (n : Nat) (e : Volt) (point : Bool) : Device :=
  let h := cluHalf n
  let x := d.cluster n
  let g := d.engine n
  let start := g.injecting && fld (d.reg .a (lpeP n) 0x140) 4 3 == 0
  let c := d.capture h
  let c : Capture := if c.st = .armed ∧ start then { c with st := .running } else c
  if c.owner = some n ∧ c.st = .running ∧ c.samples.length < 4096 then
    if c.skip = 0 then
      let inj := if point then roundDiv (g.inj * 131072) (max 1 x.vin.toNat) else roundDiv g.inj 625
      let s : CapSample :=
        { c0 := w32 (ofSigned 32 inj), c1 := w32 (ofSigned 32 (errCounts e)), c2 := w32 x.duty
          c3 := w32 (ofSigned 16 (x.remote / 32000)) }
      d.setCapture h { c with samples := c.samples ++ [s], skip := fld (d.reg .a (lpeP n) 0x140) 15 8
                              t0 := if c.samples.isEmpty then d.tb h else c.t0 }
    else d.setCapture h { c with skip := c.skip - 1 }
  else d

/-! ## Armed injections of checkers (R335, R336) -/

/-- The armed injection of a half covers a checker: its MODE bit. -/
def Device.armedFor (d : Device) (h : Half) (unit index : Nat) : Option Bool :=
  let c := d.canary h
  let w := d.reg .a (canjP h) 0x40
  if c.armed ∧ 0 < c.injLeft ∧ fld w 14 0 = index * 1024 + unit then some (bit w 24) else none

/-- One inverted check is consumed; the last one sets DONE. -/
def Device.consumeInjection (d : Device) (h : Half) : Device :=
  d.modCanary h fun c =>
    { c with injLeft := c.injLeft - 1, armed := decide (1 < c.injLeft), injDone := c.injDone || decide (c.injLeft = 1) }

/-- The CP registers a cluster's stored-pair checker visits on each inner sample, in ascending offset from CLU TGT. -/
def storedPairs (n : Nat) : List (PageId × Nat) :=
  ([0x40, 0x44, 0x48, 0x4C, 0x50, 0x58, 0x5C, 0x60, 0x64].map fun o => (cluP n, o)) ++ [(lpeP n, 0x40), (lpeP n, 0x44)]

/-- The stored-pair checks of one inner sample: an inconsistent pair is found, and an armed injection inverts what each of the
next N checks finds (R33, R335). The last consistent value stays in use. -/
def Device.checkPairs (d : Device) (n : Nat) : Device :=
  let h := cluHalf n
  d.each (storedPairs n) fun d (p, o) =>
    let bad := !cpOk (d.reg h p o)
    match d.armedFor h (n % 36) 0 with
    | none => if bad then d.pairError h p o { unit := n % 36, kind := 0x06, access := 6 } else d
    | some _ =>
      let d := d.consumeInjection h
      if bad then d else d.pairError h p o { unit := n % 36, kind := 0x06, access := 6, injected := true }

end Sys2Proof.Machine
end

