-- ==== Sys2Proof/Machine/Loop.lean ====
section
/-! DEFINITION. The regulation commands: inner and outer samples, slews, trims, rotation, sync groups, sense points,
FOLLOW paths, plausibility and capture (files 06 and 07). -/

namespace Sys2Proof.Machine

/-! ## The inner sample (R113, R119, R131-R137, R150-R155, R158-R173) -/

/-- Take a sample's measurements: the cells' currents, the voltages, and the limit flags cleared for the next one. A base sample
lasts 8 switching periods (R131), and a rotation that waited for an add or a shed takes effect (R122). -/
def Cluster.measure (x : Cluster) (m : InnerMeas) : Cluster :=
  let y := (List.range 8).foldl (fun (y : Cluster) c =>
    y.modCell c fun z => { z with current := if z.st = .active then m.cells.getD c 0 else 0, inLimit := false }) x
  { y with
    remote := m.remote, loc := m.loc, vin := m.vin
    current := ((List.range 8).map fun c => (y.cell c).current).sum
    sumI := x.sumI + ((List.range 8).map fun c => (y.cell c).current).sum
    samples := x.samples + 1
    rotAge := x.rotAge + 8, changed := false, rotDue := false
    rot := if x.rotDue then (x.rot + 1) % 8 else x.rot, sinceChange := if x.rotDue then 0 else x.sinceChange }

/-- The counters of brake, over-voltage, under-voltage and sense loss after one base sample with error e. -/
def Device.protectSample (d : Device) (n : Nat) (e : Volt) : Device :=
  let x := d.cluster n
  let p := x.prot
  let b := d.brakeMargin n
  let ov := d.ovSample n
  let uv := d.uvSample n
  let (s1, s2) := d.senseSample n
  d.setCluster n
    { x with
      sinceChange := satNat 16 (x.sinceChange + 1)
      prot := { p with
        ovRun := if ov then satNat 2 (p.ovRun + 1) else 0
        uvRun := if uv then satNat 16 (p.uvRun + 1) else 0
        uv := p.uv && uv
        senseRun1 := if s1 then satNat 4 (p.senseRun1 + 1) else 0
        senseRun2 := if s2 then satNat 8 (p.senseRun2 + 1) else 0
        brakeRun := if decide (e < -b) then satNat 2 (p.brakeRun + 1) else 0
        brakeEase := decide (-b ≤ 2 * e)
        brakeAge := if p.brake then satNat 16 (p.brakeAge + 1) else 0
        brakeHold := p.brakeHold - 1 } }

/-- The plausibility counter after one base sample; frozen under the conditions of R153. -/
def Device.plausSample (d : Device) (n : Nat) (limited : Bool) : Device :=
  let x := d.cluster n
  let w := d.reg .a (lpeP n) 0x4C
  let r := d.residual n
  let out := decide ((fld w 7 0 : Nat) * vstep < r ∨ (fld w 7 0 : Nat) * vstep < -r)
  let frozen := limited || x.foldback || x.prot.brake || decide (x.sinceChange < 16) || !bit w 8
  let d := d.modEngine n fun g => { g with residual := r }
  if frozen then d else d.setCluster n { x with plaus := if out then satNat 32 (x.plaus + 1) else 0 }

/-- The reference, the settle counts and V_target on one inner sample (R87, R112-R114). -/
def Device.referenceSample (d : Device) (n : Nat) : Device :=
  let x := d.cluster n
  let there := x.vref == x.target
  let vref := if x.prot.fallback then x.vref else slewStep (d.fswUnits (syncOf n)) (d.slewRate n) x.vref x.target
  let off : Int := if x.source = 1#2 then x.offset * 625 else 0
  let vt := vref + off - x.current * 4 * (d.clu n 0x44 % 128 : Nat)
  let band : Int := (fld (d.reg .a (ralP (railOf n)) 0x50) 5 0 : Nat) * vstep
  let within (b e : Int) : Bool := decide (e ≤ b ∧ -e ≤ b)
  d.setCluster n
    { x with
      vref, vtarget := vt
      reached := if there then x.reached + 1 else 0
      settle := if there && within band (vt - x.sensed) then satNat 16 (x.settle + 1) else 0
      near := if there && within (25 * mV) (x.target - x.sensed) then satNat 16 (x.near + 1) else 0 }

/-- The engine's part of one base sample: injection, compensator or manual duty, clamp, windup (R132-R137, R150, R151). -/
def Device.engineSample (d : Device) (n : Nat) : Volt × Device :=
  let cfg := d.engineCfg n
  let g := d.engine n
  let x := d.cluster n
  let computing := !cfg.fp || g.base == 0
  let g' := (g.base + 1) % 4
  if !computing then
    (x.vtarget - x.sensed, d.modEngine n fun g => { g with base := g', sinceSat := satNat 4096 (g.sinceSat + 1) })
  else
    let point := bit (d.reg .a (lpeP n) 0x50) 2
    let (sig, g1) := d.inject n
    let d := d.setEngine n g1
    let e := x.vtarget + (if point then 0 else sig) - x.sensed
    let preset := !cfg.manual && g1.preset.isSome
    let dutyInj : Int := if point ∧ !preset ∧ 0 < x.vin then roundDiv (sig * 2048) x.vin.toNat else 0
    let hold := x.prot.brake || x.prot.crowbar
    let md := d.lpe n 0x44 % 2048
    let c : Computed :=
      if cfg.manual then { cmd := if md = 2047 then g1.hold else md, states := g1.states, sat := false }
      else d.compensate n e g1.preset
    let u := c.cmd + dutyInj
    let cmd := (clampInt 0 1228 u).toNat
    let windup := !cfg.manual && g1.preset.isNone && (c.sat || decide ((1228 < u ∧ 0 < e) ∨ (u < 0 ∧ e < 0)))
    let first := c.sat && g1.sinceSat == 4096
    let keep := windup || hold || cfg.manual
    let g2 := if keep then g1 else g1.setStates c.states
    let d := d.setEngine n
      { g2 with
        base := g', windup, err := e
        preset := if hold then g1.preset else none
        saturated := if c.sat then satInc g1.saturated else g1.saturated
        windups := if windup then satInc g1.windups else g1.windups
        sinceSat := if c.sat then 0 else satNat 4096 (g1.sinceSat + 1) }
    let d := d.modCluster n fun x =>
      { x with dutyNext := cmd
               sinceChange := if g1.preset.isSome ∧ !hold then 0 else x.sinceChange }
    let d := if c.sat then d.perr .a (lpeP n) 1 else d
    let d := if first then d.report (cluHalf n) (unitReport (n % 36) 0x23 (lpeP n)) else d
    (e, d.captureSample n e point)

/-- One inner sample of a switching cluster. -/
def Device.innerSample (d : Device) (n : Nat) (m : InnerMeas) : Device :=
  let x := d.cluster n
  if x.st ≠ .active then d
  else
    let limited := (List.range 8).any fun c => (x.cell c).inLimit
    let g := d.engine n
    let take := (!(d.engineCfg n).fp || g.base == 0) && !x.prot.brake && !x.prot.crowbar
    let x := x.measure m
    let d := d.setCluster n { x with duty := if take then x.dutyNext else x.duty }
    let d := d.referenceSample n
    let d := d.plausSample n limited
    let (e, d) := d.engineSample n
    let d := d.protectSample n e
    let y := d.cluster n
    let k := y.activeCells.length
    let fast := decide (y.current * 16 > ((d.ilim n : Int) - 8000) * k) && decide (0 < k)
    let d := if fast then d.addCell n else d
    d.checkPairs n

def execInnerLoopSample (n : Fin 72) (m : InnerMeas) (s : State) : Host.Outcome State Fault Refusal :=
  runOn s fun d => d.innerSample n m

/-! ## Completions (R114-R116, R121, R122) -/

/-- SLEW_DONE: the reference is at its target and 16 samples have stayed in the band. -/
def Device.slewDone (d : Device) (n : Nat) : Device :=
  let x := d.cluster n
  if x.slew.busy ∧ x.vref = x.target ∧ 16 ≤ x.settle then
    let d := d.setCluster n { x with slew := { x.slew with busy := false, done := true } }
    (d.interrupt (cluHalf n) (.slew n)).railComplete (railOf n)
  else d

def execSlewDone (n : Fin 72) (s : State) : Host.Outcome State Fault Refusal := runOn s fun d => d.slewDone n

/-- LATE: SETTLE.LATE µs of samples have passed since the reference reached its target without SLEW_DONE (R114). A sample lasts
640 / (64 + FSW) hundredths of a µs. -/
def Device.slewLate (d : Device) (n : Nat) : Device :=
  let x := d.cluster n
  let late := fld (d.reg .a (ralP (railOf n)) 0x50) 15 8
  if x.slew.busy ∧ x.vref = x.target ∧ x.settle < 16 ∧ late * 10 * d.fswUnits (syncOf n) ≤ x.reached * 64 then
    let d := (d.setCluster n { x with slew := { x.slew with busy := false, late := true } }).interrupt (cluHalf n) (.slew n)
    ((d.perr .a (cluP n) 1).report (cluHalf n) (unitReport (n % 36) 0x21 (cluP n))).railComplete (railOf n)
  else d

def execSlewLate (n : Fin 72) (s : State) : Host.Outcome State Fault Refusal := runOn s fun d => d.slewLate n

/-- A trim has stayed at its clamp for 256 outer samples (R121); reported once per stay. -/
def Device.cellTrimLimit (d : Device) (n c : Nat) : Device :=
  let x := d.cluster n
  if (x.cell c).clamped = 256 then
    let d := d.setCluster n (x.modCell c fun y => { y with clamped := 257 })
    (d.perr .a (cluP n) 2).report (cluHalf n) (unitReport (n % 36) 0x22 (cluP n) 0 c)
  else d

def execCellTrimLimit (n : Fin 72) (c : Fin 8) (s : State) : Host.Outcome State Fault Refusal :=
  runOn s fun d => d.cellTrimLimit n c

/-- CELLCFG.ROT + 1: switching periods from one rotation to the next (R122). -/
def Device.rotPeriod (d : Device) (n : Nat) : Int := d.clu n 0x50 / 256 + 1

/-- A rotation that falls due before the next inner sample: every cell advances by one slot, after a cell added or shed since the
latest sample one period later (R122; which period of a sample a command falls in is DEDUCED, LOG 68). -/
def Device.rotate (d : Device) (n : Nat) : Device :=
  let x := d.cluster n
  let rotAge := x.rotAge - d.rotPeriod n
  if x.st ≠ .active ∨ x.rotDue ∨ x.rotAge + 8 ≤ d.rotPeriod n then d
  else if x.changed then d.setCluster n { x with rotAge, rotDue := true }
  else d.setCluster n { x with rotAge, rot := (x.rot + 1) % 8, sinceChange := 0 }

def execFiringRotation (n : Fin 72) (s : State) : Host.Outcome State Fault Refusal := runOn s fun d => d.rotate n

/-! ## The outer sample (R118, R121, R142-R148, R199) -/

/-- Selected sense points of a rail (R130). -/
def Device.senseSel (d : Device) (r : Nat) : List Nat :=
  (List.range 4).filter fun k => bit (d.reg .a (ralP r) 0x54) k

/-- The counters of sense-point validity after one outer sample (R144). -/
def Device.senseUpdate (d : Device) (r : Nat) (m : OuterMeas) : Device :=
  let x := d.rail r
  let sel := d.senseSel r
  let read (k : Nat) : Volt := m.sense.getD k 0
  let x := (List.range 4).foldl (fun (x : Rail) k =>
    { x with sense := tset 0 k (read k) x.sense }) x
  let x := sel.foldl (fun (x : Rail) k =>
    let others := sel.filter (· != k)
    let diff : Int :=
      if others.isEmpty then (read k - vcode (d.railRef r)) * 100
      else (read k * others.length - (others.map read).sum) * 150 / others.length
    -- within 100 mV of the mean, or 150 mV of the reference for a single point: both scaled to 15,000 mV
    let inside := decide (diff ≤ 15000 * mV ∧ -diff ≤ 15000 * mV)
    { x with
      senseOut := tset 0 k (if inside then 0 else satNat 16 (tget 0 x.senseOut k + 1)) x.senseOut
      senseIn := tset 0 k (if inside then satNat 16 (tget 0 x.senseIn k + 1) else 0) x.senseIn }) x
  d.setRail r x

/-- Valid selected points. -/
def Device.senseValid (d : Device) (r : Nat) : List Nat :=
  (d.senseSel r).filter fun k => !tget false (d.rail r).senseBad k

/-- Sharing clusters: ACTIVE, CASCADE, in AUTO, not in fallback (R143). -/
def Device.sharing (d : Device) (r : Nat) : List Nat :=
  (railClusters r).filter fun n =>
    d.clusterActive n && (d.cluster n).source == 1#2 && !(d.engineCfg n).manual && !(d.cluster n).prot.fallback

/-- 20 mV in binary32. -/
def clamp20 : W32 := ratio32 2 100

/-- The section output u and the section states of one outer sample (R142). -/
def Device.outerSections (d : Device) (r : Nat) (e : W32) : W32 × List W32 :=
  let x := d.rail r
  let coef (i : Nat) : W32 := d.reg .a (ralP r) (0x60 + 4 * i)
  let order := d.ral r 0x58 % 2
  let secs := (List.range (2 + order)).map fun s =>
    ({ b0 := coef (3 * s), b1 := coef (3 * s + 1), a1 := coef (3 * s + 2), exp := 0 } : Section)
  let states := [x.s0, x.s1, x.s2]
  let (y, ss, sat) := cascadeFP (secs.zip states) e
  let u := clamp32 clamp20 y
  let further := u != y && ((lt32 0#32 e && lt32 0#32 y) || (lt32 e 0#32 && lt32 y 0#32))
  (u, if sat || further then states else ss ++ states.drop ss.length)

/-- Share terms and offsets of one outer sample (R143). -/
def Device.shareOffsets (d : Device) (r : Nat) (u : W32) : Device :=
  let x := d.rail r
  let cs := d.sharing r
  let idx (n : Nat) : Nat := n - (railClusters r).headD 0
  let len := cs.length
  let total : Int := (((railClusters r).filter d.clusterActive).map fun n => (d.cluster n).current).sum
  let mean : W32 := if len = 0 then 0#32 else ratio32 total (1000 * len)
  let ksh := d.reg .a (ralP r) 0x84
  let step (n : Nat) : W32 :=
    let q := tget 0#32 x.share (idx n)
    let dq := mul32 ksh (sub32 mean (ratio32 (d.cluster n).current 1000))
    let o := tget 0 x.offs (idx n)
    let blocked := (o == 4096 && lt32 0#32 dq) || (o == -4096 && lt32 dq 0#32)
    if blocked then q else add32 q dq
  let qs := cs.map fun n => (n, step n)
  let sum := qs.foldl (fun acc e => add32 acc e.2) 0#32
  let avg : W32 := match val32 sum with
    | .fin neg m ex => ratio32 ((if neg then -1 else 1) * (m * 2 ^ ex.toNat : Nat)) (max 1 len * 2 ^ (-ex).toNat)
    | _ => 0#32
  d.each qs fun d (n, q) =>
    let q := sub32 q avg
    let o := clampInt (-4096) 4096 (scaleRound32 (add32 u q) 204800)
    let d := d.modRail r fun x => { x with share := tset 0#32 (idx n) q x.share, offs := tset 0 (idx n) o x.offs }
    -- the offset crosses as a complement-protected message: the receiver drops a bad one (R51), as an armed injection makes it
    let key := pageBase (ralP r) + 0x100 + 4 * idx n
    if d.cross.bad.contains key then { d with cross := { d.cross with bad := d.cross.bad.filter (· != key) } }
    else match d.armedFor (cluHalf n) (n % 36) 1 with
    | some _ =>
      (d.consumeInjection (cluHalf n)).report (cluHalf n)
        { unit := n % 36, kind := 0x11, addr := key, injected := true }
    | none => d.modCluster n fun y => { y with offset := o }

/-- The outer loop's sample (R142-R144). -/
def Device.outerLoop (d : Device) (r : Nat) : Device :=
  let on := (d.ral r 0x58).testBit 1
  let valid := d.senseValid r
  if !on then
    let d := d.modRail r fun x => { x with u := 0#32, offs := [], share := [] }
    d.each (railClusters r) fun d n => d.modCluster n fun y => { y with offset := if y.prot.fallback then y.offset else 0 }
  else if valid.isEmpty then d
  else
    let x := d.rail r
    let irail : Int := (((railClusters r).filter d.clusterActive).map fun n => (d.cluster n).current).sum
    let refV := vcode (d.railRef r) - irail * 4 * (d.ral r 0x4C % 128 : Nat)
    let sum := (valid.map fun k => tget 0 x.sense k).sum
    let e := clamp32 err32 (ratio32 (refV * valid.length - sum) (128000000 * valid.length))
    let (u, ss) := d.outerSections r e
    let d := d.modRail r fun x =>
      { x with u, s0 := ss.getD 0 0#32, s1 := ss.getD 1 0#32, s2 := ss.getD 2 0#32 }
    d.shareOffsets r u

/-- Trims of a cluster's active cells (R121), clamped to ±125 steps: -BALGAIN / 4,096 steps for each mA of I_cell - I_cluster / n. -/
def Device.balance (d : Device) (n : Nat) : Device :=
  let w := d.reg .a (cluP n) 0x54
  let x := d.cluster n
  let act := x.activeCells
  let top : Int := 125 * 4096 * 840
  if !bit w 8 || act.isEmpty then d
  else
    d.setCluster n (act.foldl (fun (x : Cluster) c =>
      x.modCell c fun y =>
        let e := (y.current * act.length - x.current) * (840 / act.length : Nat)
        let t := clampInt (-top) top (y.trim - (fld w 7 0 : Nat) * e)
        let stay := decide (t = top ∨ t = -top)
        { y with trim := t
                 clamped := if !stay then 0 else if y.clamped = 257 then 257 else satNat 256 (y.clamped + 1) }) x)

/-- The mapped value of a duty in 1/4,096, in 2⁻¹⁵ VCODE, clamped to FVLO-FVHI (R147). -/
def Device.followMap (d : Device) (r duty : Nat) : Int :=
  let lo : Int := d.ral r 0xA4 % 512
  let hi : Int := d.ral r 0xA8 % 512
  clampInt (lo * 2 ^ 15) (hi * 2 ^ 15) (lo * 2 ^ 15 + (hi - lo) * (10 * (duty : Int) - 4096))

/-- The clusters and targets a FOLLOW code reaches: FOLLOW clusters, and CASCADE ones when RSRC is FOLLOW (R111). -/
def Device.followTargets (d : Device) (r code : Nat) : List (Nat × Volt) :=
  ((railClusters r).filter fun n =>
    d.clu n 0x5C % 4 == 2 || (d.clu n 0x5C % 4 == 1 && d.ral r 0x44 % 2 == 1)).map fun n => (n, vcode code)

/-- Filter and quantise; a new code is one command with tag 0xFFFF (R148). -/
def Device.followFilter (d : Device) (r : Nat) (m : OuterMeas) : Device :=
  let x := d.rail r
  let src := d.ral r 0xA0 % 8
  let mapped := if src = 2 then d.followMap r (satNat 4095 m.vseta) else x.follow.mapped
  let hold := x.follow.holding || x.follow.selecting
  if hold then d.setRail r { x with follow := { x.follow with mapped } }
  else
    let k := fld (d.reg .a (ralP r) 0xAC) 3 0
    let f := x.follow.filter + (mapped * 2 ^ 15 - x.follow.filter) / (2 ^ k : Nat)
    let code : Int := x.follow.code
    let far := decide (3 * 2 ^ 28 < f - code * 2 ^ 30 ∨ 3 * 2 ^ 28 < code * 2 ^ 30 - f)
    let near := (roundDiv f (2 ^ 30)).toNat
    let d := d.setRail r { x with follow := { x.follow with mapped, filter := f, code := if far then near else x.follow.code } }
    let ts := (d.followTargets r near).filter fun t => d.clusterActive t.1
    if far ∧ !ts.isEmpty then d.railCommand r tagFollow ts none else d

/-- VIN power of a cluster in units of 7.8125 nV x 1 mA (R199). -/
def Device.clusterPower (d : Device) (n : Nat) : Int :=
  let x := d.cluster n
  x.loc * x.current + x.activeCells.length * Config.switchLoss n + x.current * x.current * Config.resistiveLoss n

/-- One outer-loop sample of a rail. -/
def Device.outerSample (d : Device) (r : Nat) (m : OuterMeas) : Device :=
  let cs := (railClusters r).filter d.clusterActive
  let d := ((d.checkStored (ralHalf r) (ralP r)).checkStored (ralHalf r) clkP).senseUpdate r m
  let d := d.modRail r fun x => { x with current := (cs.map fun n => (d.cluster n).current).sum, live := true }
  let d := d.outerLoop r
  let d := d.each cs fun d n => (d.balance n).fillCells n
  let on := (d.part (railPart r)).st == .on
  let d := d.each cs fun d n =>
    if on && d.shedEnabled n then d.shedEval n else d.modCluster n fun x => { x with sumI := 0, samples := 0 }
  -- the boundary of an outer-loop sample is one of a binary32 sample too (R131)
  let d := d.each cs fun d n => d.modEngine n fun g => { g with base := 0 }
  let d := d.followFilter r m
  let d := if r % 6 < 2 then d.each cs fun d n => d.modSpender (cluHalf n) (n % 36) fun x =>
      { x with sumI := x.sumI + (d.cluster n).current, samplesI := x.samplesI + 1 } else d
  let d := if r % 6 < 2 then d.setBudgets (ralHalf r) ((railClusters r).map (· % 36)) else d
  d.modRail r fun x => { x with power := x.power + (cs.map d.clusterPower).sum, powerN := x.powerN + 1 }

def execOuterLoopSample (r : Fin 12) (m : OuterMeas) (s : State) : Host.Outcome State Fault Refusal :=
  runOn s fun d => d.outerSample r m

/-! ## Sync groups (R124-R128) -/

/-- A SYNC_IN period in ps lies within ±6 % of f_sw / 8. -/
def periodFits (fu p : Nat) : Bool :=
  decide (94 * (fu * 156250) * p ≤ 100 * 10 ^ 12 ∧ 100 * 10 ^ 12 ≤ 106 * (fu * 156250) * p)

/-- 16 consecutive periods qualify: the group starts to acquire and its modulation ends (R124, R126). -/
def Device.syncAcquire (d : Device) (g : Nat) (periods : List Nat) : Device :=
  let x := d.sync g
  let src := d.cp .a clkP (0x60 + 4 * g) / 64 % 4
  if !d.pins.porstLow ∧ src = 1 ∧ (x.st = .free ∨ x.st = .gliding) ∧ periods.length = 16 ∧ periods.all (periodFits (d.fswUnits g)) then
    d.setSyncState g { x with st := .acquiring, spread := false }
  else d

def execSyncAcquire (g : Fin 4) (periods : List Nat) (s : State) : Host.Outcome State Fault Refusal :=
  runOn s fun d => d.syncAcquire g periods

/-- Phase is matched at 8 x the SYNC_IN frequency (R124). -/
def Device.syncLocked (d : Device) (g freq : Nat) : Device :=
  let x := d.sync g
  if !d.pins.porstLow ∧ x.st = .acquiring then d.setSyncState g { x with st := .locked, freq := 8 * freq } else d

def execSyncLocked (g : Fin 4) (freq : Nat) (s : State) : Host.Outcome State Fault Refusal :=
  runOn s fun d => d.syncLocked g freq

/-- A locked group loses SYNC_IN: it glides back, with one report; an acquiring one glides back with none (R125). -/
def Device.syncLost (d : Device) (g : Nat) : Device :=
  let x := d.sync g
  match x.st with
  | .locked => (d.setSyncState g { x with st := .gliding }).report (syncHalf g)
      (unitReport 0x68 0x20 clkP (0x60 + 4 * g) g)
  | .acquiring => d.setSyncState g { x with st := .gliding }
  | _ => d

def execSyncLost (g : Fin 4) (s : State) : Host.Outcome State Fault Refusal := runOn s fun d => d.syncLost g

/-- The glide has reached the programmed frequency; the modulation resumes (R125-R127). -/
def Device.glideComplete (d : Device) (g : Nat) : Device :=
  let x := d.sync g
  if x.st = .gliding then
    d.setSyncState g { st := .free, freq := d.fswUnits g * 1250000
                       spread := decide (d.cp .a clkP (0x60 + 4 * g) / 256 % 4 ≠ 0) }
  else d

def execGlideComplete (g : Fin 4) (s : State) : Host.Outcome State Fault Refusal := runOn s fun d => d.glideComplete g

/-! ## Sense points (R144) -/

/-- Whether a rail has a valid selected point: with none left the loop holds, with one report (R144). -/
def Device.senseCheck (d : Device) (r : Nat) : Device :=
  let none := (d.senseValid r).isEmpty
  let d' := d.modRail r fun x => { x with lost := none }
  if none ∧ !(d.rail r).lost then d'.report (ralHalf r) (unitReport (0x24 + r % 6) 0x24 (ralP r)) else d'

/-- A selected point has been outside the band for 16 outer samples: it is dropped. -/
def Device.sensePointInvalid (d : Device) (r k : Nat) : Device :=
  let x := d.rail r
  if (d.senseSel r).contains k ∧ 16 ≤ tget 0 x.senseOut k ∧ !tget false x.senseBad k then
    (d.setRail r { x with senseBad := tset false k true x.senseBad }).senseCheck r
  else d

def execSensePointInvalid (r : Fin 12) (k : Fin 4) (s : State) : Host.Outcome State Fault Refusal :=
  runOn s fun d => d.sensePointInvalid r k

/-- A dropped point has stayed within the band for 16 outer samples. -/
def Device.sensePointValid (d : Device) (r k : Nat) : Device :=
  let x := d.rail r
  if tget false x.senseBad k ∧ 16 ≤ tget 0 x.senseIn k then
    (d.setRail r { x with senseBad := tset false k false x.senseBad }).senseCheck r
  else d

def execSensePointValid (r : Fin 12) (k : Fin 4) (s : State) : Host.Outcome State Fault Refusal :=
  runOn s fun d => d.sensePointValid r k

/-! ## FOLLOW (R145, R147, R149) -/

/-- The code the DVFS arbiter asks of a CORE rail's internal pulse source: VFTAB of the highest frequency it is bound to, and the
entry voltage while the half warms itself (R190, R191, R194). -/
def Device.dvfsCode (d : Device) (h : Half) : Nat :=
  let g := d.gov h
  let top := max g.active (max (g.locking.getD 0) (g.waiting.getD 0))
  if tget false d.power.selfwarm h.idx then d.cp .a pdmP (0xA0 + 4 * partDomain (corePart h)) % 512
  else d.cp .a (govP h) (0x200 + 4 * top) % 512

/-- The high time the arbiter gives a period of its internal source: the duty that R147 maps to its code. -/
def Device.dvfsHigh (d : Device) (r period : Nat) : Nat :=
  let lo := d.ral r 0xA4 % 512
  let hi := d.ral r 0xA8 % 512
  let c := min hi (max lo (d.dvfsCode (ralHalf r)))
  (period * (hi - lo + 8 * (c - lo)) + 5 * (hi - lo)) / max 1 (10 * (hi - lo))

/-- A period lies within 1.0-10.0 µs, in counts of 250 ps (R145). -/
def periodValid (p : Nat) : Bool := decide (4000 ≤ p ∧ p ≤ 40000)

/-- The expected period: the mean of the last 16 valid ones (R145). -/
def Follow.expected (f : Follow) : Option Nat := if f.periods.isEmpty then none else some (f.periods.sum / f.periods.length)

/-- The path has measured one pulse period (R145): its duty in 1/4,096 and whether it is valid. -/
def Device.pulseMeasured (d : Device) (r high period : Nat) : Device :=
  let ok := periodValid period
  let v := d.followMap r (satNat 4096 (high * 4096 / period))
  d.modRail r fun x => { x with follow := { x.follow with
    mapped := if ok then v else x.follow.mapped
    valid := if ok then satNat 4 (x.follow.valid + 1) else 0
    invalid := if ok then 0 else satNat 4 (x.follow.invalid + 1)
    periods := if ok then (period :: x.follow.periods).take 16 else x.follow.periods
    lastEdge := d.tb (ralHalf r) } }

/-- One pulse period of a path's source, in counts of 250 ps; the internal source's high time is the arbiter's own. VSETA has no
pulses (R145, R146, R190). -/
def Device.pulsePeriod (d : Device) (r high period : Nat) : Device :=
  let src := d.ral r 0xA0 % 8
  if src = 3 then
    let d := d.pulseMeasured r (d.dvfsHigh r period) period
    let x := d.rail r
    -- a command that completed LATE is issued again while an upward switch waits for it (file 09)
    if (d.gov (ralHalf r)).waitSlew.isSome ∧ !x.slew.busy ∧ !x.slew.done then
      d.railCommand r tagFollow (d.followTargets r x.follow.code) none
    else d
  else if src < 2 then d.pulseMeasured r high period
  else d

def execPulsePeriod (r : Fin 12) (high period : Nat) (s : State) : Host.Outcome State Fault Refusal :=
  runOn s fun d => d.pulsePeriod r high period

/-- The instant at which a path counts its source as lost: at once after 4 consecutive invalid periods; 4 expected periods after
the latest edge; 40 µs after a selection with no valid period since (R149). None: the path has nothing to lose. -/
def Device.lossAt (d : Device) (r : Nat) : Option W64 :=
  let f := (d.rail r).follow
  if f.holding || d.ral r 0xA0 % 8 == 2 then none
  else if 4 ≤ f.invalid then some (d.tb (ralHalf r))
  else match f.expected with
    | some p => some (f.lastEdge + BitVec.ofNat 64 ((4 * p + 39) / 40))
    | none => if f.selecting then some (f.since + 4000#64) else none

/-- The pulse source of a path is lost: f and the code are held, with one report (R149). VSETA has no loss detection. -/
def Device.followLost (d : Device) (r : Nat) : Device :=
  match d.lossAt r with
  | none => d
  | some t =>
    let d := (d.advanceTo (ralHalf r) t).modRail r fun x =>
      { x with follow := { x.follow with holding := true, valid := 0, selecting := false } }
    d.report (ralHalf r) (unitReport (0x24 + r % 6) 0x25 (ralP r))

def execFollowLost (r : Fin 12) (s : State) : Host.Outcome State Fault Refusal := runOn s fun d => d.followLost r

/-- Four consecutive valid periods: filtering resumes from the held f (R149). -/
def Device.followResume (d : Device) (r : Nat) : Device :=
  let x := d.rail r
  if (x.follow.holding ∨ x.follow.selecting) ∧ 4 ≤ x.follow.valid then
    d.setRail r { x with follow := { x.follow with holding := false, selecting := false } }
  else d

def execFollowResume (r : Fin 12) (s : State) : Host.Outcome State Fault Refusal := runOn s fun d => d.followResume r

/-! ## Plausibility and capture (R152, R155) -/

/-- The counter has reached 32: report and restart it. -/
def Device.plausible (d : Device) (n : Nat) : Device :=
  let x := d.cluster n
  if 32 ≤ x.plaus then
    let d := (d.setCluster n { x with plaus := 0 }).perr .a (cluP n) (2 ^ 8)
    (d.perr .a (lpeP n) 4).report (cluHalf n) (unitReport (n % 36) 0x26 (cluP n))
  else d

def execPlausibility (n : Fin 72) (s : State) : Host.Outcome State Fault Refusal := runOn s fun d => d.plausible n

/-- CAPCTL.ARM: claim the half's buffer, or be refused. -/
def Device.capArm (d : Device) (n dec trig : Nat) : Bool × Device :=
  let h := cluHalf n
  let c := d.capture h
  match c.owner with
  | some o =>
    if o = n then
      (true, (d.setReg .a (lpeP n) 0x140 (w32 (dec * 256 + trig * 8))).setCapture h
        { owner := some n, st := if trig = 1 then .running else .armed })
    else (false, (d.perr .a (lpeP n) 2).modEngine n fun g => { g with capDenied := true })
  | none =>
    let d := (d.setReg .a (lpeP n) 0x140 (w32 (dec * 256 + trig * 8))).modEngine n fun g =>
      { g with capDenied := false, capMode := false }
    (true, d.setCapture h { owner := some n, st := if trig = 1 then .running else .armed })

/-- CAPCTL.STOP: the capture of this engine ends. -/
def Device.capStop (d : Device) (n : Nat) : Bool × Device :=
  let h := cluHalf n
  let c := d.capture h
  if c.owner = some n ∧ c.st ≠ .idle then (true, d.setCapture h { c with st := .full }) else (true, d)

/-- CAPCTL.REL: the buffer is released. -/
def Device.capRel (d : Device) (n : Nat) : Bool × Device :=
  let h := cluHalf n
  if (d.capture h).owner = some n then (true, d.setCapture h {}) else (true, d)

/-- A write of CAPCTL: DEC and TRIG are stored, then REL, STOP and ARM act in that order. -/
def Device.capWrite (d : Device) (n : Nat) (v : W32) : Bool × Device :=
  let dec := fld v 15 8
  let trig := fld v 4 3
  let d := if bit v 2 then (d.capRel n).2 else d
  let d := if bit v 1 then (d.capStop n).2 else d
  if bit v 0 then d.capArm n dec trig
  else (true, d.setReg .a (lpeP n) 0x140 (w32 (dec * 256 + trig * 8)))

/-- The words of CAPCTL a capture command stands for (R156). -/
def capWord (dec trig low : Nat) : W32 := w32 (dec * 256 + trig * 8 + low)

def execCapctlArm (m : Master) (n : Fin 72) (dec : Byte) (trig : BitVec 2) (s : State) : Host.Outcome State Fault Refusal :=
  runOn s fun d =>
    d.guarded m (lpeP n) 0x140 (capWord dec.toNat trig.toNat 1) fun d => d.capArm n dec.toNat trig.toNat

def execCapctlStop (m : Master) (n : Fin 72) (s : State) : Host.Outcome State Fault Refusal :=
  runOn s fun d => d.guarded m (lpeP n) 0x140 (d.reg .a (lpeP n) 0x140 ||| 2#32) fun d => d.capStop n

def execCapctlRel (m : Master) (n : Fin 72) (s : State) : Host.Outcome State Fault Refusal :=
  runOn s fun d => d.guarded m (lpeP n) 0x140 (d.reg .a (lpeP n) 0x140 ||| 4#32) fun d => d.capRel n

/-- The trigger of an armed capture comes: at the first injected sample, at once, or at the first report of this cluster's CLU or LPE
page. -/
def Device.capTrigger (d : Device) (n : Nat) : Device :=
  let c := d.capture (cluHalf n)
  let trig := fld (d.reg .a (lpeP n) 0x140) 4 3
  if c.owner = some n ∧ c.st = .armed ∧ trig ≠ 3 ∧ (trig = 0 → (d.engine n).injecting = true)
      ∧ (trig = 2 → c.seen = true) then
    d.setCapture (cluHalf n) { c with st := .running }
  else d

def execCaptureTrigger (n : Fin 72) (s : State) : Host.Outcome State Fault Refusal := runOn s fun d => d.capTrigger n

/-- The capture has taken 4,096 samples. -/
def Device.capFull (d : Device) (n : Nat) : Device :=
  let c := d.capture (cluHalf n)
  if c.owner = some n ∧ c.st = .running ∧ 4096 ≤ c.samples.length then
    d.setCapture (cluHalf n) { c with st := .full }
  else d

def execCaptureFull (n : Fin 72) (s : State) : Host.Outcome State Fault Refusal := runOn s fun d => d.capFull n

/-- The word a read returns to its master. -/
def Device.returnRead (d : Device) (m : Master) (v : W32) : Device :=
  { d with txn := { d.txn with readData := tset 0#32 (masterIdx m) v d.txn.readData } }

/-- The captured sample CAPIDX selects; zeros unless this engine holds the buffer (R156). -/
def Device.capSample (d : Device) (n : Nat) : CapSample :=
  let c := d.capture (cluHalf n)
  let i := fld (d.reg .a (lpeP n) 0x148) 11 0
  if c.owner = some n then c.samples.getD i ⟨0#32, 0#32, 0#32, 0#32⟩ else ⟨0#32, 0#32, 0#32, 0#32⟩

/-- A read of CAPD3 returns channel 3 and moves CAPIDX on (R156). -/
def Device.capd3Read (d : Device) (m : Master) (n : Nat) : Device :=
  if d.farPage m (lpeP n) then
    (d.returnRead m 0xFFFFFFFF#32).report (homeOf m) (accessReport m 0x09 (pageBase (lpeP n) + 0x158) false)
  else
    let i := fld (d.reg .a (lpeP n) 0x148) 11 0
    (d.returnRead m (d.capSample n).c3).setReg .a (lpeP n) 0x148 (w32 ((i + 1) % 4096))

def execCapd3Read (m : Master) (n : Fin 72) (s : State) : Host.Outcome State Fault Refusal :=
  runOn s fun d => d.ordered m (pageBase (lpeP n) + 0x158) fun d => d.capd3Read m n

end Sys2Proof.Machine
end

