-- ==== Sys2Proof/Machine/PmBus.lean ====
section
/-! DEFINITION. TWI1, the controller port: its message queues, the filter, the converters and their supervision
(R76-R79, R88, R298, R351-R357, R360). -/

namespace Sys2Proof.Machine

/-! ## Messages (R352-R354) -/

def PmMsg.tag (m : PmMsg) : Nat := fld m.word0 31 24
def PmMsg.prot (m : PmMsg) : Nat := fld m.word0 18 16
def PmMsg.code (m : PmMsg) : Nat := fld m.word0 15 8
def PmMsg.conv (m : PmMsg) : Nat := fld m.word0 6 0
def PmMsg.data (m : PmMsg) : Nat := fld m.word1 15 0
def PmMsg.isRead (m : PmMsg) : Bool := m.prot == 3 || m.prot == 4

/-- Commands of R353 that a row of the table sends. -/
def pmCodes : List Nat := [0x01, 0x03, 0x20, 0x79, 0x7A, 0x7B, 0x7C, 0x7D, 0x88, 0x8B, 0x8C, 0x8D, 0x96]

/-- The half whose rail a converter feeds (R79). -/
def convHalf (i : Nat) : Half := if i = 0 ∨ (2 ≤ i ∧ i < 5) then .a else .b

/-- The converters of a half's DRAM stacks in the order VPP, VDD, VDDQ (R76, R79). -/
def dramConvs (h : Half) : List Nat := (List.range 3).map fun j => 2 + 3 * h.idx + j

/-- Results of R354. -/
inductive PmResult where
  | ok | nackAddress | nackData | badPec | arb | stuck | filtered | link | bad
  deriving DecidableEq, Repr

def PmResult.code : PmResult → Nat
  | .ok => 0 | .nackAddress => 1 | .nackData => 2 | .badPec => 3 | .arb => 4 | .stuck => 5 | .filtered => 6
  | .link => 7 | .bad => 8

def Device.conv (d : Device) (i : Nat) : Converter := tget {} d.twi.convs i
def Device.setConv (d : Device) (i : Nat) (x : Converter) : Device :=
  { d with twi := { d.twi with convs := tset {} i x d.twi.convs } }
def Device.modTwi (d : Device) (f : TwoWire → TwoWire) : Device := { d with twi := f d.twi }

/-- A converter whose output is commanded on: a VIN converter always, a DRAM converter after OPERATION (R357). -/
def Device.convOn (d : Device) (i : Nat) : Bool := decide (i < 2) || (d.conv i).on

/-- The head of a source's queue. -/
def TwoWire.head (w : TwoWire) : PmSource → Option PmMsg
  | .deputy => w.depq.head?
  | .poller => w.polls.head?
  | .overman => w.ovmq.head?

/-- The message in service, or the next one: Deputy's queue, then the poller, then Overman's; a full response queue holds
its source back (R351, R354). -/
def TwoWire.front (w : TwoWire) : Option (PmSource × PmMsg) :=
  match w.retry with
  | some (s, _) => (w.head s).map fun m => (s, m)
  | none =>
    let dep := (w.depq.head?).filter fun m => m.own || decide (w.rspd.length < 16)
    let ovm := (w.ovmq.head?).filter fun _ => decide (w.rspo.length < 16)
    match dep, w.polls.head?, ovm with
    | some m, _, _ => some (.deputy, m)
    | none, some m, _ => some (.poller, m)
    | none, none, some m => some (.overman, m)
    | none, none, none => none

/-- What the device may send (R78, R298, R352, R353): OPERATION goes to DRAM converters alone. -/
def PmMsg.malformed (m : PmMsg) : Bool :=
  decide (5 ≤ m.prot ∨ 8 ≤ m.conv) || (m.code == 0x01 && decide (m.conv < 2))
  || (!m.isRead && m.code != 0x01 && m.code != 0x03)

/-- Overman's messages that pass the filter (R353). -/
def PmMsg.passes (m : PmMsg) : Bool := m.isRead || (m.prot == 0 && m.code == 0x03)

/-- The requester's half cannot reach TWI1 (R360). -/
def Device.pmCut (d : Device) (s : PmSource) (m : PmMsg) : Bool :=
  m.half == .a && d.apart &&
    (match s with
      | .overman => true
      | .deputy => !d.bellUp
      | .poller => false)

/-- The response entry of a message (R354, R362). -/
def pmResponse (m : PmMsg) (r : PmResult) (data : Nat) : W32 :=
  w32 (m.tag * 2 ^ 24 + 2 ^ 23 + r.code * 2 ^ 16 + (if m.isRead ∧ r = .ok then data % 0x10000 else 0))

/-- The Canary a converter's report goes to: Half B's while Half A's cannot be reached (R357, R360). -/
def Device.convCanary (d : Device) (i : Nat) : Half :=
  if convHalf i = .a ∧ d.apart ∧ !d.bellUp then .b else convHalf i

/-- A message of Deputy's own for a converter. -/
def ownMsg (i prot code data : Nat) : PmMsg :=
  { word0 := w32 (prot * 2 ^ 16 + code * 2 ^ 8 + i), word1 := w32 data, half := convHalf i, own := true }

/-- Deputy's own messages move into its queue as far as it has room (R351). -/
def TwoWire.refill (w : TwoWire) : TwoWire :=
  let room := 16 - w.depq.length
  { w with depq := w.depq ++ w.own.take room, own := w.own.drop room }

/-- Deputy queues a message of its own, which waits while the queue is full. -/
def Device.ownSend (d : Device) (m : PmMsg) : Device := d.modTwi fun w => { w with own := w.own ++ [m] }.refill

/-! ## What a converter's answer says -/

/-- Linear11: an 11-bit mantissa times a power of two given by a 5-bit exponent (R353). -/
def linear11 (v : W16) : Int × Int := (toSigned 11 v.toNat, toSigned 5 (v.toNat / 2048))

/-- The linear format of VOUT_MODE: READ_VOUT's mantissa and the exponent of bits [4:0] (R353). -/
def linear16 (mode : Byte) (v : W16) : Nat × Int := (v.toNat, toSigned 5 mode.toNat)

/-- VOUT_MODE [7:5] is not 0b000: the converter is treated as not answering (R353). -/
def Converter.foreign (c : Converter) : Bool := c.voutMode.any fun v => decide (32 ≤ v.toNat)

/-- STATUS_WORD bits of a fault of a converter (R357). -/
def statusFault (i : Nat) (on : Bool) (s : Nat) : Bool :=
  (on && (s.testBit 6 || s.testBit 11)) || s.testBit 5 || s.testBit 4
  || (decide (i < 2) && (s.testBit 3 || s.testBit 2 || s.testBit 15 || s.testBit 14 || s.testBit 13))

/-- A converter did not answer: PMBUS_NO_RESPONSE, once until it next answers (R354). -/
def Device.noResponse (d : Device) (i : Nat) : Device :=
  let c := d.conv i
  if c.noAnswer then d
  else (d.setConv i { c with noAnswer := true }).report (d.convCanary i) (unitReport 0x67 0x1A (twiP 1) (0x60 + 4 * i) i)

/-- The poller's reading of STATUS_WORD (R357). -/
def Device.supervise (d : Device) (i s : Nat) : Device :=
  let c := d.conv i
  let bad := statusFault i (d.convOn i) s
  let d := if s.testBit 1 then d.modTwi fun w => { w with cml := satInc w.cml } else d
  let d := d.setConv i { c with polled := true, status := BitVec.ofNat 16 s, episode := bad }
  if bad ∧ !c.episode then
    d.report (d.convCanary i) (unitReport 0x67 (if i < 2 then 0x1F else 0x1B) (twiP 1) (0x60 + 4 * i) i)
  else d

/-! ## Enabling the DRAM rails (R88) -/

/-- The MEM part of a converter is in step 3 of a power-up, where Deputy enables its converters (R88). -/
def Device.enabling (d : Device) (i : Nat) : Bool :=
  let p := d.part (memPart (convHalf i))
  decide (2 ≤ i) && p.st == .up && p.step == 3

/-- Begin with the converter of the given position: OPERATION on. -/
def Device.enableConv (d : Device) (h : Half) (j : Nat) : Device :=
  match (dramConvs h)[j]? with
  | none => d
  | some i => d.ownSend (ownMsg i 1 0x01 0x80)

/-- Deputy disables VDDQ, VDD and VPP, in that order (R89). -/
def Device.disableConvs (d : Device) (h : Half) : Device :=
  let d := { d with power := { d.power with converters := tset 0 h.idx 0 d.power.converters } }
  d.each (dramConvs h).reverse fun d i =>
    (d.setConv i { d.conv i with on := false }).ownSend (ownMsg i 1 0x01 0x00)

/-- Deputy's next message after one of its own has ended: OPERATION, then VOUT_MODE where it is not known, STATUS_WORD and
READ_VOUT confirm a converter before the next is commanded (R88; DEDUCED, LOG 15). -/
def Device.ownNext (d : Device) (m : PmMsg) (r : PmResult) (data : Nat) : Device :=
  let i := m.conv
  if !d.enabling i then d
  else if r ≠ .ok then
    (match r with
      | .nackAddress | .nackData | .badPec => d.ownSend m
      | _ => d)
  else if (d.conv i).foreign then d
  else if m.code = 0x01 then
    (if (d.conv i).voutMode.isNone then d.ownSend (ownMsg i 3 0x20 0) else d.ownSend (ownMsg i 4 0x79 0))
  else if m.code = 0x20 then d.ownSend (ownMsg i 4 0x79 0)
  else if m.code = 0x79 then
    (if data.testBit 6 || data.testBit 11 then d.ownSend m else d.ownSend (ownMsg i 4 0x8B 0))
  else if m.code = 0x8B ∧ !Config.voutConfirms i (((d.conv i).voutMode.getD 0#8).toNat) data then d.ownSend m
  else if m.code = 0x8B then
    let h := convHalf i
    let n := tget 0 d.power.converters h.idx
    if n < 3 ∧ (dramConvs h)[n]? = some i then
      let d := { d with power := { d.power with converters := tset 0 h.idx (n + 1) d.power.converters } }
      d.enableConv h (n + 1)
    else d
  else d

/-! ## Serving messages -/

/-- Remove the head of a source's queue. -/
def TwoWire.pop (w : TwoWire) : PmSource → TwoWire
  | .deputy => { w with depq := w.depq.drop 1 }.refill
  | .poller => { w with polls := w.polls.drop 1 }
  | .overman => { w with ovmq := w.ovmq.drop 1 }

/-- The message in service ends with a result (R354). -/
def Device.pmEnd (d : Device) (s : PmSource) (m : PmMsg) (r : PmResult) (data : Nat) : Device :=
  let w := pmResponse m r data
  let d := d.modTwi fun t => { t.pop s with retry := none, losses := 0 }
  let silent := r = .nackAddress ∨ r = .nackData ∨ r = .badPec
  let d := if silent ∧ s ≠ .overman then d.noResponse m.conv else d
  match s with
  | .deputy => if m.own then d.ownNext m r data else d.modTwi fun t => { t with rspd := t.rspd ++ [w] }
  | .overman => d.modTwi fun t => { t with rspo := t.rspo ++ [w] }
  | .poller => if r = .ok then d else d.setConv m.conv { d.conv m.conv with polled := false }

/-- What a good answer tells the device of the converter. -/
def Device.pmLearn (d : Device) (s : PmSource) (m : PmMsg) (data : Nat) : Device :=
  let i := m.conv
  let c := d.conv i
  let c :=
    if m.code = 0x01 then { c with on := decide (m.data % 256 = 0x80) }
    else if m.code = 0x20 then { c with voutMode := some (BitVec.ofNat 8 data) }
    else if m.isRead then { c with reading := tset 0#16 m.code (BitVec.ofNat 16 data) c.reading }
    else if m.code = 0x03 then { c with episode := false }
    else c
  if c.foreign ∧ s ≠ .overman then (d.setConv i c).noResponse i
  else
    let d := d.setConv i { c with noAnswer := if c.foreign then c.noAnswer else false }
    if s = .poller then d.supervise i data else d

/-- Messages that are not sent are answered when their turn comes: BAD, LINK, FILTERED (R352, R353, R360). -/
def Device.pmSettle : Nat → Device → Device
  | 0, d => d
  | n + 1, d =>
    match d.twi.retry, d.twi.front with
    | none, some (s, m) =>
      if m.malformed ∧ !(s = .overman ∧ !m.passes) then (d.pmEnd s m .bad 0).pmSettle n
      else if d.pmCut s m then (d.pmEnd s m .link 0).pmSettle n
      else if s = .overman ∧ !m.passes then
        let d := (d.perr .b (twiP 1) 8).report .b (unitReport 0x6C 0x59 (twiP 1) 0x50)
        (d.pmEnd s m .filtered 0).pmSettle n
      else d
    | _, _ => d

/-- The result of an answer that does not end well. -/
def pmFail : BusAnswer → Option PmResult
  | .ack _ => none
  | .nackAddress => some .nackAddress
  | .nackData => some .nackData
  | .wrongPec => some .badPec

/-- One attempt of the message in service (R354). A wrong PEC is found only on a read with PECEN = 1. -/
def Device.pmAttempt (d : Device) (r : BusAnswer) : Device :=
  match d.twi.front with
  | none => d
  | some (s, m) =>
    let tries := (d.twi.retry.map (·.2)).getD 0 + 1
    let pec := bit (d.reg .a (twiP 1) 0x40) 2 && m.isRead
    match r with
    | .ack v =>
      let data := if m.prot = 3 then v.toNat % 256 else v.toNat
      ((d.pmLearn s m data).pmEnd s m .ok data).pmSettle 40
    | _ =>
      if r = .wrongPec ∧ !pec then d
      else if tries < 3 then d.modTwi fun t => { t with retry := some (s, tries), losses := 0 }
      else (d.pmEnd s m ((pmFail r).getD .nackData) 0).pmSettle 40

/-- TWI1 is idle in DORMANT and while the bus is stuck (R356, R359). -/
def Device.pmIdle (d : Device) : Bool := d.power.dormant || d.twi.stuck

/-- The first attempt of the next message, where its command is the given one. -/
def Device.pmServe (d : Device) (code : Nat) (r : BusAnswer) : Device :=
  match d.twi.retry, d.twi.front with
  | none, some (_, m) => if m.code = code ∧ !d.pmIdle then d.pmAttempt r else d
  | _, _ => d

def execPmOperation (r : BusAnswer) (s : State) : Host.Outcome State Fault Refusal := runOn s fun d => d.pmServe 0x01 r
def execPmClearFaults (r : BusAnswer) (s : State) : Host.Outcome State Fault Refusal := runOn s fun d => d.pmServe 0x03 r
def execPmVoutMode (r : BusAnswer) (s : State) : Host.Outcome State Fault Refusal := runOn s fun d => d.pmServe 0x20 r
def execPmStatusWord (r : BusAnswer) (s : State) : Host.Outcome State Fault Refusal := runOn s fun d => d.pmServe 0x79 r
def execPmStatusVout (r : BusAnswer) (s : State) : Host.Outcome State Fault Refusal := runOn s fun d => d.pmServe 0x7A r
def execPmStatusIout (r : BusAnswer) (s : State) : Host.Outcome State Fault Refusal := runOn s fun d => d.pmServe 0x7B r
def execPmStatusInput (r : BusAnswer) (s : State) : Host.Outcome State Fault Refusal := runOn s fun d => d.pmServe 0x7C r
def execPmStatusTemperature (r : BusAnswer) (s : State) : Host.Outcome State Fault Refusal :=
  runOn s fun d => d.pmServe 0x7D r
def execPmReadVin (r : BusAnswer) (s : State) : Host.Outcome State Fault Refusal := runOn s fun d => d.pmServe 0x88 r
def execPmReadVout (r : BusAnswer) (s : State) : Host.Outcome State Fault Refusal := runOn s fun d => d.pmServe 0x8B r
def execPmReadIout (r : BusAnswer) (s : State) : Host.Outcome State Fault Refusal := runOn s fun d => d.pmServe 0x8C r
def execPmReadTemperature1 (r : BusAnswer) (s : State) : Host.Outcome State Fault Refusal :=
  runOn s fun d => d.pmServe 0x8D r
def execPmReadPout (r : BusAnswer) (s : State) : Host.Outcome State Fault Refusal := runOn s fun d => d.pmServe 0x96 r

/-- A retry comes 1 ms after the attempt before it (R354). A read of a command that has no row of its own is also sent
here for the first time (DEDUCED, LOG 15). -/
def Device.pmRetry (d : Device) (r : BusAnswer) : Device :=
  match d.twi.retry, d.twi.front with
  | some _, some _ => if d.pmIdle then d else (d.advanceBy .b 100000).pmAttempt r
  | none, some (_, m) => if !pmCodes.contains m.code ∧ !d.pmIdle then d.pmAttempt r else d
  | _, _ => d

def execPmbusRetry (r : BusAnswer) (s : State) : Host.Outcome State Fault Refusal := runOn s fun d => d.pmRetry r

/-- Arbitration is lost at a bit of the message in service; after 16 losses in a row it ends (R355). -/
def Device.arbLost (d : Device) : Device :=
  match d.twi.front with
  | none => d
  | some (s, m) =>
    if d.pmIdle then d
    else
      let n := d.twi.losses + 1
      let d := d.modTwi fun t => { t with losses := n, lossCount := satInc t.lossCount }
      let d := d.report .b (unitReport 0x6C 0x5C (twiP 1))
      if 16 ≤ n then (d.pmEnd s m .arb 0).pmSettle 40 else d

def execTwiArbLost (s : State) : Host.Outcome State Fault Refusal := runOn s fun d => d.arbLost

/-- End every queued message with STUCK, as far as the response queues have room (R356). -/
def Device.endStuck : Nat → Device → Device
  | 0, d => d
  | n + 1, d =>
    match { d.twi with retry := none }.front with
    | none => d
    | some (s, m) => (d.pmEnd s m .stuck 0).endStuck n

/-- Bus clear: 35 ms without an edge, or 10 ms after the attempt before (R356). -/
def Device.busClear (d : Device) (r : BusClear) : Device :=
  if d.power.dormant then d
  else
    let d := d.advanceBy .b (if d.twi.stuck then 1000000 else 3500000)
    match r with
    | .freed => d.modTwi fun t => { t with stuck := false }
    | _ =>
      let d := (d.perr .b (twiP 1) 4).report .b
        (unitReport 0x6C 0x5D (twiP 1) 0 (if r = .sclStuck then 0x2 else 0x3))
      let d := d.modTwi fun t => { t with stuck := true, retry := none }
      d.endStuck (d.twi.depq.length + d.twi.ovmq.length + d.twi.polls.length)

def execBusClear (r : BusClear) (s : State) : Host.Outcome State Fault Refusal := runOn s fun d => d.busClear r

/-- The converters the poller reads: VIN ones while PD8 is ON, DRAM ones while their MEM domain is ON (R357). -/
def Device.pollList (d : Device) : List Nat :=
  (List.range 8).filter fun i =>
    if i < 2 then (d.part (svcPart .a)).st == .on && (d.part (svcPart .b)).st == .on
    else (d.part (memPart (convHalf i))).st == .on

/-- The poller's turn: one STATUS_WORD message for each converter (R357). -/
def Device.poll (d : Device) : Device :=
  if d.power.dormant then d
  else
    let d := d.advanceGrid .b (fld (d.reg .a (twiP 1) 0x40) 15 8 * 100000)
    let ms := d.pollList.map fun i => { ownMsg i 4 0x79 0 with half := .b }
    if d.twi.polls.isEmpty then (d.modTwi fun t => { t with polls := ms }).pmSettle 40 else d

def execPoll (s : State) : Host.Outcome State Fault Refusal := runOn s fun d => d.poll

/-! ## The queue registers (R351, R362) -/

/-- A write of word 1 enqueues a Deputy message; a full queue discards it. -/
def Device.depqWrite (d : Device) (m : Master) (v : W32) : Bool × Device :=
  if 16 ≤ d.twi.depq.length then (false, d.classErr m (twiP 1) 1)
  else
    let msg : PmMsg := { word0 := d.reg .a (twiP 1) 0x44, word1 := v, half := homeOf m }
    (true, (d.modTwi fun t => { t with depq := t.depq ++ [msg] }).pmSettle 40)

/-- A write of word 1 enqueues an Overman message. -/
def Device.ovmqWrite (d : Device) (m : Master) (v : W32) : Bool × Device :=
  if 16 ≤ d.twi.ovmq.length then (false, d.classErr m (twiP 1) 1)
  else
    let msg : PmMsg := { word0 := d.reg .a (twiP 1) 0x4C, word1 := v, half := homeOf m }
    (true, (d.modTwi fun t => { t with ovmq := t.ovmq ++ [msg] }).pmSettle 40)

def execDepq1 (m : Master) (v : W32) (s : State) : Host.Outcome State Fault Refusal :=
  runOn s fun d => d.guarded m (twiP 1) 0x48 v fun d => d.depqWrite m v

def execOvmq1 (m : Master) (v : W32) (s : State) : Host.Outcome State Fault Refusal :=
  runOn s fun d => d.guarded m (twiP 1) 0x50 v fun d => d.ovmqWrite m v

/-- A read of a far page while the halves are apart returns all ones (R36). -/
def Device.farRead (d : Device) (m : Master) (p : PageId) (off : Nat) : Device :=
  (d.returnRead m 0xFFFFFFFF#32).report (homeOf m) (accessReport m 0x09 (pageBase p + off) false)

/-- A read of RSPD returns the oldest Deputy response and removes it; 0 when there is none. -/
def Device.rspdRead (d : Device) (m : Master) : Device :=
  if d.farPage m (twiP 1) then d.farRead m (twiP 1) 0x54
  else
    let v := d.twi.rspd.headD 0#32
    ((d.modTwi fun t => { t with rspd := t.rspd.drop 1 }).returnRead m v).pmSettle 40

/-- A read of RSPO returns the oldest Overman response and removes it; 0 when there is none. -/
def Device.rspoRead (d : Device) (m : Master) : Device :=
  if d.farPage m (twiP 1) then d.farRead m (twiP 1) 0x58
  else
    let v := d.twi.rspo.headD 0#32
    ((d.modTwi fun t => { t with rspo := t.rspo.drop 1 }).returnRead m v).pmSettle 40

def execRspd (m : Master) (s : State) : Host.Outcome State Fault Refusal :=
  runOn s fun d => d.ordered m 0x281054 fun d => d.rspdRead m
def execRspo (m : Master) (s : State) : Host.Outcome State Fault Refusal :=
  runOn s fun d => d.ordered m 0x281058 fun d => d.rspoRead m

/-! ## Reset (R353, R359) -/

/-- TWI1 finishes the byte, sends STOP and empties every queue without responses. -/
def Device.pmReset (d : Device) : Device :=
  d.modTwi fun t => { t with depq := [], own := [], ovmq := [], polls := [], rspd := [], rspo := [], retry := none, losses := 0 }

/-- After each boot Deputy reads VOUT_MODE of every converter once (R353). -/
def Device.pmBoot (d : Device) : Device :=
  let d := d.each (List.range 8) fun d i => d.setConv i { d.conv i with voutMode := none }
  d.each (List.range 8) fun d i => d.ownSend (ownMsg i 3 0x20 0)

end Sys2Proof.Machine
end

