-- ==== Sys2Proof/Machine/StoreBase.lean ====
section
/-! DEFINITION. The settings store: banks, what an image holds, the choice at boot, and the sticky log's entries
(R315-R319, R333). -/

namespace Sys2Proof.Machine

/-! ## The sticky log (R333) -/

/-- Word i of an entry; an empty slot holds zeros. -/
def LogEntry.word (e : LogEntry) (i : Nat) : W32 := e.words.getD i 0#32

/-- An entry is valid, by bit 28 of word 2; its class in force is bits [25:24]. -/
def LogEntry.valid (e : LogEntry) : Bool := bit (e.word 2) 28

def Canary.logAt (c : Canary) (i : Nat) : LogEntry := tget {} c.log i

/-- Entries written after an entry, by its sequence. -/
def Canary.logAge (c : Canary) (i : Nat) : Nat := (c.logSeq + 0x10000 - fld ((c.logAt i).word 7) 15 0) % 0x10000

/-- The oldest of some slots. -/
def Canary.oldest (c : Canary) : List Nat → Option Nat
  | [] => none
  | i :: is => match c.oldest is with
    | none => some i
    | some j => if c.logAge j < c.logAge i then some i else some j

/-- The slot a new entry takes: an empty one, else the oldest entry below HALT, else the oldest. -/
def Canary.nextSlot (c : Canary) : Nat :=
  let slots := List.range 32
  match slots.find? fun i => !(c.logAt i).valid with
  | some i => i
  | none => match c.oldest (slots.filter fun i => fld ((c.logAt i).word 2) 25 24 ≠ 3) with
    | some i => i
    | none => (c.oldest slots).getD 0

/-- Write an entry; `w` are words 0-6, and word 7 takes the sequence. -/
def Canary.writeLog (c : Canary) (w : List W32) : Nat × Canary :=
  let i := c.nextSlot
  let e : LogEntry := { words := w.take 7 ++ [w32 (c.logSeq % 0x10000)] }
  let c := { c with log := tset {} i e c.log, logSeq := c.logSeq + 1 }
  (i, { c with logHead := c.nextSlot })

/-- An entry of a report that opens no capture: DEP_WATCHDOG and STORE_INTERRUPTED (R319, R333). -/
def Device.logReport (d : Device) (h : Half) (r : Report) (cls : Nat) : Device :=
  let w := r.word0 h
  let t := d.tb h
  let words := [w.setWidth 32, (w >>> 32).setWidth 32, w32 (2 ^ 17 + 2 ^ 28 + cls * 2 ^ 24), w32 (r.master * 2 ^ 16),
    t.setWidth 32, (t >>> 32).setWidth 32, 0#32]
  d.modCanary h fun c => (c.writeLog words).2

/-! ## Banks (R315, R316) -/

/-- Bank b of a half. -/
def Device.bank (d : Device) (h : Half) (b : Nat) : Bank := tget {} d.nvm.banks (2 * h.idx + b)

def Device.setBank (d : Device) (h : Half) (b : Nat) (x : Bank) : Device :=
  { d with nvm := { d.nvm with banks := tset {} (2 * h.idx + b) x d.nvm.banks } }

/-- Both records check. -/
def Bank.valid (b : Bank) : Bool := b.header && b.commit

/-- A section's bytes. -/
def sectionBytes (s : List (W32 × W32)) : List Byte := s.flatMap fun e => leBytes 4 e.1.toNat ++ leBytes 4 e.2.toNat

def Bank.payload (b : Bank) : List Byte := sectionBytes b.globalSec ++ sectionBytes b.secA ++ sectionBytes b.secB

/-- CRC-32C over the payload. -/
def Bank.crc (b : Bank) : W32 := crc32c b.payload

/-- The 64-byte header. -/
def Bank.headerBytes (b : Bank) : List Byte :=
  let h := leBytes 4 0x5E771A6B ++ leBytes 2 1 ++ leBytes 2 (flag b.forceLocal 0 + flag (b.writer == .b) 1)
    ++ leBytes 4 b.seq.toNat ++ leBytes 4 (8 * b.globalSec.length) ++ leBytes 4 (8 * b.secA.length)
    ++ leBytes 4 (8 * b.secB.length) ++ leBytes 4 b.crc.toNat ++ leBytes 4 0
  h ++ h.map fun x => ~~~x

/-- The 64-byte commit record. -/
def Bank.commitBytes (b : Bank) : List Byte :=
  leBytes 4 0x5E77C0DE ++ leBytes 4 b.seq.toNat ++ leBytes 4 (~~~b.seq).toNat
    ++ leBytes 4 (crc32c b.headerBytes).toNat ++ List.replicate 48 0#8

/-- The byte of a bank at an offset below 96 KiB; a record that does not check reads zeros. -/
def Bank.byteOf (b : Bank) (a : Nat) : Byte :=
  if a < 0x40 then (if b.header then b.headerBytes.getD a 0#8 else 0#8)
  else if 0x17FC0 ≤ a then (if b.commit then b.commitBytes.getD (a - 0x17FC0) 0#8 else 0#8)
  else if b.header then b.payload.getD (a - 0x40) 0#8 else 0#8

/-- A 32-bit word of a half's store at a byte offset (R315, R320). -/
def Device.storeWord (d : Device) (h : Half) (a : Nat) : W32 :=
  if a < 0x30000 then
    let b := d.bank h (a / 0x18000)
    w32 (leNat ((List.range 4).map fun i => b.byteOf (a % 0x18000 + i)))
  else if a < 0x34000 then Config.calRegion h.idx ((a - 0x30000) / 4)
  else 0#32

/-! ## What an image holds (R317) -/

/-- The field tables' rows whose reset reads "store". -/
def storeRow (p : PageId) (r : RegRow) : Bool :=
  let rw := match r.acc with
    | .rw => true
    | _ => false
  match p.1 with
  | .tmb => r.off == 0x4C
  | .pdm => r.off == 0x80 || r.off == 0x88 || r.off == 0x8C
  | .clk => r.off == 0x60
  | .dep | .thm | .lnk | .bay | .mem | .twi => rw
  | .ovm => r.off == 0x4C || r.off == 0x50
  | .clu => rw && r.off != 0x60
  | .lpe => rw && !([0x48, 0x50, 0x54, 0x148].contains r.off)
  | .ral => rw && !decide (0x60 ≤ r.off ∧ r.off < 0x90)
  | .gov => rw || r.off == 0x58 || r.off == 0x5C || r.off == 0x60
  | .can => rw || r.off == 0x60 || r.off == 0x64
  | _ => false

/-- Page offsets an image holds: POWN and the rows above. -/
def storeOffsets (p : PageId) : List Nat :=
  0x1C :: ((bodyRows p).filter (storeRow p)).flatMap fun r => (List.range r.count).map fun i => r.off + r.stride * i

/-- Every page of some classes. -/
def pagesOf (cs : List PageClass) : List PageId := cs.flatMap fun c => (List.range c.pages).map fun i => (c, i)

/-- The pages of the global section, and of a half's own section. -/
def globalPages : List PageId := pagesOf (allClasses.filter (·.isGlobal))
def halfPages (h : Half) : List PageId :=
  (pagesOf (allClasses.filter (! ·.isGlobal))).filter fun p => pageHalf p.1 p.2 == h

/-- The entries of some pages, from the copies of one half. -/
def Device.pageEntries (d : Device) (h : Half) (ps : List PageId) : List (W32 × W32) :=
  ps.flatMap fun p => (storeOffsets p).map fun o => (w32 (pageBase p + o), d.reg h p o)

/-- A CONFIG key's entry (R316). -/
def keyEntry (key v : Nat) : W32 × W32 := (w32 (2 ^ 24 + key), w32 v)

/-- The default addresses of R79. -/
def convDefault (i : Nat) : BitVec 7 :=
  [0x40#7, 0x41#7, 0x44#7, 0x45#7, 0x46#7, 0x48#7, 0x49#7, 0x4A#7].getD i 0#7

def Device.convAddress (d : Device) (i : Nat) : BitVec 7 := tabGet convDefault d.deputy.convAddr i

/-- The Deputy keys of an image. -/
def Device.deputyKeys (d : Device) (h : Half) : List (W32 × W32) :=
  let dep (o : Nat) : Nat := low16 (d.reg h depP o)
  (List.range 12).map (fun r => keyEntry 1 (r * 2 ^ 16 + dep (0x80 + 4 * r)))
  ++ (List.range 12).map (fun r => keyEntry 2 (r * 2 ^ 16 + dep (0xC0 + 4 * r)))
  ++ (List.range 12).map (fun r => keyEntry 3 (r * 2 ^ 16 + dep (0x100 + 4 * r)))
  ++ [keyEntry 4 (dep 0x140), keyEntry 5 (dep 0x144), keyEntry 6 (dep 0x148), keyEntry 7 (d.reg h ovmP 0x4C).toNat,
      keyEntry 8 (d.reg h ovmP 0x50).toNat]
  ++ (allClasses.filter fun c => c != .tmb && c != .dep && c != .canj).map
      (fun c => keyEntry 0x10 (c.code + (d.reg h (c, 0) 0x1C).toNat % 32 * 256))
  ++ (List.range 8).map (fun i => keyEntry 0x11 (i + (d.convAddress i).toNat * 256))

/-- The service keys of an image (R294). -/
def Policy.keys (p : Policy) : List (W32 × W32) :=
  [keyEntry 0x200 p.weights.1, keyEntry 0x201 p.weights.2.1, keyEntry 0x202 p.weights.2.2.1,
   keyEntry 0x203 p.weights.2.2.2, keyEntry 0x204 p.quantum, keyEntry 0x205 p.batchMax, keyEntry 0x206 p.stepTok,
   keyEntry 0x207 p.chunk, keyEntry 0x208 p.capDelta, keyEntry 0x209 p.telePeriod]

/-- The global section from the copies of one half. -/
def Device.globalSection (d : Device) (h : Half) : List (W32 × W32) :=
  d.pageEntries h globalPages ++ d.deputyKeys h ++ d.service.policy.keys

def Device.halfSection (d : Device) (h : Half) : List (W32 × W32) := d.pageEntries h (halfPages h)

/-! ## Applying an image -/

/-- Set one service key (R294). -/
def Policy.set (p : Policy) (key v : Nat) : Policy :=
  match key with
  | 0x200 => { p with weights := (v, p.weights.2) }
  | 0x201 => { p with weights := (p.weights.1, v, p.weights.2.2) }
  | 0x202 => { p with weights := (p.weights.1, p.weights.2.1, v, p.weights.2.2.2) }
  | 0x203 => { p with weights := (p.weights.1, p.weights.2.1, p.weights.2.2.1, v) }
  | 0x204 => { p with quantum := v }
  | 0x205 => { p with batchMax := v }
  | 0x206 => { p with stepTok := v }
  | 0x207 => { p with chunk := v }
  | 0x208 => { p with capDelta := v }
  | 0x209 => { p with telePeriod := v }
  | _ => p

/-- Set a converter's address. -/
def Device.setConvAddr (d : Device) (i a : Nat) : Device :=
  { d with deputy := { d.deputy with convAddr := tabSet convDefault i (BitVec.ofNat 7 a) d.deputy.convAddr } }

/-- POWN as key 0x0010 sets it: bit 3 stays 1 (R26, R303). -/
def pownWord (v : Nat) (old : W32) : W32 := w32 (v / 256 % 32 / 16 * 16 + v / 256 % 8) ||| (old &&& 8#32)

/-- The register of DEP[0] that an envelope key writes, and the value (R300, R303). -/
def envelopeReg (key v : Nat) : Option (Nat × Nat) :=
  let rail := v / 2 ^ 16 % 16
  match key with
  | 1 => some (0x80 + 4 * rail, v % 512)
  | 2 => some (0xC0 + 4 * rail, v % 512)
  | 3 => some (0x100 + 4 * rail, v % 8192)
  | 4 => some (0x140, v % 1024)
  | 5 => some (0x144, v % 256)
  | 6 => some (0x148, v % 256)
  | _ => none

/-- The pages a POWN key writes, with the copies of each, on the halves given (R303). -/
def pownPages (hs : List Half) (v : Nat) : List (PageId × List Half) :=
  match allClasses.find? fun c => c.code == v % 256 with
  | none => []
  | some c => ((pagesOf [c]).filter fun p => c.isGlobal || hs.contains (pageHalf c p.2)).map fun p =>
      (p, if c.isGlobal then hs else [pageHalf c p.2])

/-- What one Deputy or service key sets, on the copies of the halves given (R300, R303). An envelope crosses to its checker
with its complement (R51). -/
def Device.setKey (d : Device) (hs : List Half) (key v : Nat) : Device :=
  match key with
  | 1 | 2 | 3 | 4 | 5 | 6 =>
    match envelopeReg key v with
    | none => d
    | some (o, x) => d.each hs fun d h => Device.crossed d (d.setReg h depP o (cpWord x)) (regKey h depP o)
  | 7 => d.each hs fun d h => d.setReg h ovmP 0x4C (w32 v)
  | 8 => d.each hs fun d h => d.setReg h ovmP 0x50 (w32 (v % 2))
  | 0x10 => d.each (pownPages hs v) fun d (p, hs) => d.each hs fun d h => d.setReg h p 0x1C (pownWord v (d.reg h p 0x1C))
  | 0x11 => d.setConvAddr (v % 8) (v / 256 % 128)
  | _ => { d with service := { d.service with policy := d.service.policy.set key v } }

/-- Apply one entry of a section on a half. -/
def Device.applyEntry (d : Device) (h : Half) (e : W32 × W32) : Device :=
  let off := fld e.1 23 0
  match fld e.1 31 24 with
  | 0 =>
    match pageAt off with
    | none => d
    | some p => if (storeOffsets p).contains (off % 0x1000) then d.setReg h p (off % 0x1000) e.2 else d
  | 1 => d.setKey [h] off e.2.toNat
  | _ => d

/-- The entries a half's bank in force holds for it: the global section and its own; none with defaults (R317). -/
def Device.imageOf (d : Device) (h : Half) : List (W32 × W32) :=
  match tget none d.nvm.inForce h.idx with
  | none => []
  | some b =>
    let x := d.bank h b
    x.globalSec ++ (match h with
      | .a => x.secA
      | .b => x.secB)

/-- A half takes the settings of its bank in force. -/
def Device.applyBank (d : Device) (h : Half) : Device := d.each (d.imageOf h) fun d e => d.applyEntry h e

/-- Register words a warm reset keeps: PSEQ, RSTCAUSE, TBSTAT, the AONCLK source and the lock bits (R27, R47, R53,
R100, R101). -/
def keptWord (key : Nat) : Bool :=
  let off := key % 2 ^ 24
  off % 0x1000 == 0x24 || [0x6090, 0x1048, 0x7040, 0x7044].contains off

/-- One entry of an image reloads what it holds of one page from a page offset on (R101). -/
def Device.reloadEntry (p : PageId) (lo : Nat) (h : Half) (d : Device) (e : W32 × W32) : Device :=
  let off := fld e.1 23 0
  let v := e.2.toNat
  match fld e.1 31 24 with
  | 0 => if pageAt off == some p ∧ lo ≤ off % 0x1000 then d.applyEntry h e else d
  | 1 =>
    if off = 0x10 then
      (if lo < 0x40 ∧ v % 256 = p.1.code then d.setReg h p 0x1C (pownWord v (d.reg h p 0x1C)) else d)
    else if (1 ≤ off ∧ off ≤ 6 ∧ p = depP) ∨ (7 ≤ off ∧ off ≤ 8 ∧ p = ovmP) then d.applyEntry h e
    else d
  | _ => d

/-- The registers of a page from a page offset on take their reset values, with store values reloaded (R24, R101). -/
def Device.restorePage (d : Device) (hs : List Half) (p : PageId) (lo : Nat) : Device :=
  let mine (key : Nat) : Bool :=
    hs.any (fun h => decide (regKey h p lo ≤ key ∧ key < regKey h p 0x1000)) && !keptWord key
  let d := { d with
    regs := d.regs.filter fun e => !mine e.1, cross := { d.cross with inUse := d.cross.inUse.filter fun e => !mine e.1 } }
  d.each hs fun d h => d.each (d.imageOf h) (Device.reloadEntry p lo h)

/-! ## The choice at boot (R319) -/

/-- Valid banks of a half, the higher sequence first. -/
def Device.validBanks (d : Device) (h : Half) : List Nat :=
  let vs := [0, 1].filter fun b => (d.bank h b).valid
  if (d.bank h 0).seq.toNat < (d.bank h 1).seq.toNat then vs.reverse else vs

/-- The bank of a half with a given sequence and payload CRC. -/
def Device.bankLike (d : Device) (h : Half) (seq crc : W32) : Option Nat :=
  (d.validBanks h).find? fun b => (d.bank h b).seq == seq && (d.bank h b).crc == crc

/-- The common sequence M: the highest valid in both halves with an equal payload CRC. -/
def Device.commonBank (d : Device) : Option (Nat × Nat) :=
  (d.validBanks .a).findSome? fun b =>
    (d.bankLike .b (d.bank .a b).seq (d.bank .a b).crc).map fun b' => (b, b')

/-- A half's valid FORCE_LOCAL bank above a sequence. -/
def Device.localAbove (d : Device) (h : Half) (seq : W32) : Option Nat :=
  (d.validBanks h).find? fun b => (d.bank h b).forceLocal && decide (seq.toNat < (d.bank h b).seq.toNat)

/-- The bank a half takes, and whether the halves diverge. -/
def Device.chooseBank (d : Device) (h : Half) (bell : Bool) : Option Nat × Bool :=
  match (if bell then d.commonBank else none) with
  | some (a, b) =>
    let m := match h with
      | .a => a
      | .b => b
    (match d.localAbove h (d.bank h m).seq with
      | some f => (some f, true)
      | none => (some m, false))
  | none => ((d.validBanks h).head?, true)

/-- A bank is left over from an interrupted STORE. -/
def Device.leftOver (d : Device) (h : Half) (b : Nat) (chosen : Option Nat) : Bool :=
  let x := d.bank h b
  (x.header && !x.commit)
  || (x.valid && !x.forceLocal && chosen != some b
      && chosen.any fun c => decide ((d.bank h c).seq.toNat < x.seq.toNat))

/-- One half's part of the boot exchange: choose, record left-over banks and zero their commit records. -/
def Device.bootBank (d : Device) (h : Half) (choice : Option Nat) : Device :=
  let left := [0, 1].filter fun b => d.leftOver h b choice
  let r := unitReport 0x6B 0x6B nvmP
  let d := d.each left fun d b => d.setBank h b { d.bank h b with commit := false }
  let d := if left.isEmpty then d else { (d.logReport h r 0).report h r with nvm := { d.nvm with result := 4#4 } }
  { d with nvm := { d.nvm with inForce := tset none h.idx choice d.nvm.inForce } }

/-- Deputy reads and chooses the banks of some halves (R319). -/
def Device.bootStore (d : Device) (hs : List Half) (bell : Bool) : Device :=
  let a := d.chooseBank .a bell
  let b := d.chooseBank .b bell
  let d := d.each hs fun d h => d.bootBank h (match h with
    | .a => a.1
    | .b => b.1)
  { d with nvm := { d.nvm with
      divergent := a.2 || b.2
      st := .idle, current := none, next := none, localStore := false } }

end Sys2Proof.Machine
end

