-- ==== Sys2Proof/Machine/TxnBase.lean ====
section
/-! DEFINITION. Transaction slots: what they touch and how they end (R37-R41, R101). -/

namespace Sys2Proof.Machine

/-- The half a claimed page key lies on: a global page's copy, or the page's own half. -/
def keyHalf (key : Nat) : Half :=
  if 2 ^ 24 ≤ key then .b
  else match pageAt key with
    | none => .a
    | some p => if p.1.isGlobal then .a else pageHalf p.1 p.2

/-- The page of a claimed key. -/
def keyPage (key : Nat) : PageId := (pageAt (key % 2 ^ 24)).getD devP

/-- A slot that holds a transaction. -/
def TxnSlot.busy (t : TxnSlot) : Bool :=
  match t.phase with
  | .open | .committing | .checked | .gone => true
  | _ => false

/-- A transaction touches pages of a half (R40, R41). -/
def TxnSlot.touches (t : TxnSlot) (h : Half) : Bool := t.claims.any fun c => keyHalf c.1 == h

/-- A spanning transaction (R40). -/
def TxnSlot.spans (t : TxnSlot) : Bool := t.touches .a && t.touches .b

/-- A transaction touches a domain part: a page whose unit lies in it, a cluster or rail of it, or its DCMD. -/
def TxnSlot.touchesPart (t : TxnSlot) (k : Nat) : Bool :=
  t.claims.any (fun c =>
    let p := keyPage c.1
    pagePart p == some k
      || (match p.1 with
        | .clu | .lpe => railPart (railOf p.2) == k
        | .ral => railPart p.2 == k
        | _ => false))
  || t.staged.any fun e => e.1 % 2 ^ 24 == 0x6040 + 4 * partDomain k

/-- Where a master's slot is held: in SPLIT the copy of Half B has its own, 5 above (DEDUCED, LOG 13). -/
def Device.slotKey (d : Device) (m : Master) (slot : Nat) : Nat :=
  if d.apart && homeOf m == .b then slot + 5 else slot

/-- The half whose timebase a slot counts on. -/
def TxnSlot.clock (t : TxnSlot) : Half := t.home

/-- A slot reaches DONE or ABORTED: it releases its claims and records the timebase (R38). Its staged writes no longer act; the
list stays so that COUNTn reads until the next BEGIN (DEDUCED, LOG 41). -/
def Device.endSlot (d : Device) (k : Nat) (phase : Phase) (reason : BitVec 4) : Device :=
  let t := d.slotAt k
  d.setSlot k { t with phase, reason, ctime := d.tb t.home, claims := [] }

/-- Slots that hold a transaction. -/
def Device.busySlots (d : Device) : List Nat := (d.txn.slots.filter (·.2.busy)).map (·.1)

/-- End every transaction that satisfies a test, before its application boundary (R38, R101). -/
def Device.abortSlots (d : Device) (p : TxnSlot → Bool) (reason : BitVec 4) : Device :=
  d.each (d.busySlots.filter fun k => p (d.slotAt k)) fun d k => d.endSlot k .aborted reason

/-- Reasons of R37. -/
def rEnvelope : BitVec 4 := 1#4
def rConflict : BitVec 4 := 2#4
def rLink : BitVec 4 := 3#4
def rDomain : BitVec 4 := 4#4
def rTimeout : BitVec 4 := 5#4
def rAbort : BitVec 4 := 6#4
def rFull : BitVec 4 := 7#4
def rCmpl : BitVec 4 := 8#4
def rHalt : BitVec 4 := 9#4
def rPartial : BitVec 4 := 10#4

/-- At entry into SPLIT each half goes on with its own copy of the slots: spanning transactions end with LINK, those of
masters of Half B move to its copy (R369; DEDUCED, LOG 13). -/
def Device.splitSlots (d : Device) : Device :=
  let d := d.each (d.busySlots.filter fun k => (d.slotAt k).spans && (d.slotAt k).phase != .gone) fun d k =>
    (d.endSlot k .aborted rLink).report (d.slotAt k).home { unit := 0x6E, kind := 0x0E, addr := pageBase txnP }
  d.each [0, 1, 2, 3, 4] fun d k =>
    let t := d.slotAt k
    if t.busy && t.home == .b then (d.setSlot (k + 5) t).setSlot k {}
    else if t.busy then d
    else d.setSlot (k + 5) t

/-- At rejoining the two copies of the slots become one again (DEDUCED, LOG 13). -/
def Device.joinSlots (d : Device) : Device :=
  d.each [0, 1, 2, 3, 4] fun d k =>
    let b := d.slotAt (k + 5)
    let a := d.slotAt k
    let d := d.setSlot (k + 5) {}
    if b.busy ∧ !a.busy then d.setSlot k b else d

end Sys2Proof.Machine
end

