-- ==== Sys2Proof/Machine/LinkBase.lean ====
section
/-! DEFINITION. What entering SPLIT does on a half (R365, R368-R371, R377). -/

namespace Sys2Proof.Machine

/-- The lode needs the other half than q's home: it spans, or lies on the half away from the queue's home (R243, R370). -/
def Device.crossesLink (d : Device) (q l : Nat) : Bool :=
  let x := d.lode l
  x.spans || x.firstHalf != queHalf q

/-- Requests of queues of half h that need the crosscut end with SPLIT_LOST, and their sessions end (R370). -/
def Device.endCrossing (d : Device) (h : Half) : Device :=
  let hit (q l : Nat) : Bool := queHalf q == h && d.crossesLink q l
  let d := d.endRequests (fun r => hit r.queue r.lode) 0x0021
  d.endSessions fun s => hit s.queue s.lode

/-- Spanning lodes abandon their step; a load of one fails with SPLIT_LOST (R370, R377, file 10). -/
def Device.dropSpanning (d : Device) : Device :=
  d.each (d.usedSlots.filter fun l => (d.lode l).spans) fun d l =>
    let x := d.lode l
    match x.st with
    | .loading => d
    | .placing => ((d.releaseLode l).answerAsker x.asker 0x0021 0 0 0).answerAsker x.unloadAsker 0x0000 0 0 0
    | .unloading => (d.abandonStep l).finishUnload l
    | _ => d.abandonStep l

/-- PSEQ of every global page as both copies hold it (R373). -/
def Device.globalSeqs (d : Device) : Tab W32 :=
  globalPages.foldl (fun (t : Tab W32) p => tset 0#32 (pageBase p) (d.reg .a p 0x24) t) []

/-- A half enters SPLIT locally: its end stops, spanning work ends, LINK_DOWN goes to its port's rings (R368-R370). With
the bell line silent it is senior for its own half (R371). Deputy A answers its own detection with SPLIT_GO. -/
def Device.enterSplit (d : Device) (h : Half) (reason : Nat) (st : LinkState) : Device :=
  let e := d.linkEnd h
  if e.mode ≠ .joined then d
  else
    let first := !d.apart
    let d := if first then (d.splitSlots).dropSpanning else d
    let e := d.linkEnd h
    let d := d.setLinkEnd h
      { e with st, mode := if d.bellUp then .split else .autonomous, reason := BitVec.ofNat 8 reason
               splits := e.splits + 1#16, splitAt := d.tb h, agreed := false, failedReplays := 0 }
    let bell := d.link.bell
    let bell := match h with
      | .a => { bell with splitGo := bell.splitGo || d.bellUp }
      | .b => { bell with splitReq := if d.bellUp then some .b else bell.splitReq }
    let seqBase := if first then d.globalSeqs else d.link.seqBase
    let d := { d with link := { d.link with bell, seqBase } }
    (d.endCrossing h).eventFrom h 0x0004 0 0 0

/-- A link failure with its Canary kind: the end enters SPLIT (R365). -/
def Device.linkFailure (d : Device) (h : Half) (reason kind : Nat) : Device :=
  let d := (d.perr .a (lnkP h) 4).report h { unitReport 0x69 kind (lnkP h) with access := 5 }
  d.enterSplit h reason .failed

/-- PD7 leaves ON: both ends go down with the reason, raising nothing of their own (R365, file 16). -/
def Device.linkDown (d : Device) (h : Half) (reason : Nat) : Device :=
  let d := d.enterSplit h reason .off
  d.setLinkEnd h { d.linkEnd h with st := .off }

/-! ## Training (R372) -/

/-- An end begins to train. -/
def Device.startTraining (d : Device) (h : Half) : Device :=
  d.setLinkEnd h { d.linkEnd h with st := .training, trainedAt := d.tb h }

/-- A spanning STORE is being written over the bell line. -/
def Device.storeOverBell (d : Device) : Bool := d.nvm.st == .writing && !d.nvm.localStore && !d.crosscutUp

/-- A half that asked for a retrain begins it once no spanning STORE runs over the bell line: with the line alive a RETRAIN
frame goes to the far end; without it the end waits for the far half's own request. -/
def Device.beginRetrain (d : Device) (h : Half) : Device :=
  let e := d.linkEnd h
  if !e.asked || e.st == .training || e.mode == .joined || d.storeOverBell then d
  else
    let d := d.startTraining h
    if d.bellUp then { d with link := { d.link with bell := { d.link.bell with retrain := some h } } }
    else
      let f := d.linkEnd h.other
      if f.asked && f.st == .training then
        (d.setLinkEnd h { d.linkEnd h with result := 0#8 }).setLinkEnd h.other { f with result := 0#8 }
      else d.setLinkEnd h { d.linkEnd h with result := 6#8 }

/-! ## Frames of the bell line (R366, R371) -/

/-- A valid frame arrives at a half: after 3 of them a silent line is alive again, and an autonomous half returns to
agreed SPLIT. -/
def Device.bellFrame (d : Device) (h : Half) : Device :=
  let e := { d.linkEnd h with lastFrame := d.tb h }
  if d.pins.porstLow then d
  else if e.bell then d.setLinkEnd h e
  else if e.frames + 1 < 3 then d.setLinkEnd h { e with frames := e.frames + 1 }
  else
    let mode := if e.mode = .autonomous then LinkMode.split else e.mode
    let d := d.setLinkEnd h { e with frames := 0, bell := true, mode }
    if d.bellUp && d.apart then
      (d.setLinkEnd .a { d.linkEnd .a with agreed := true }).setLinkEnd .b { d.linkEnd .b with agreed := true }
    else d

end Sys2Proof.Machine
end

