-- ==== Sys2Proof/Machine/Domains.lean ====
section
/-! DEFINITION. Power domains: the states of a part, the sequence steps, what a domain loses, and the domain commands
(R83-R90, R94, R104-R117, R191). -/

namespace Sys2Proof.Machine

/-! ## Small operations -/

def Device.modPart (d : Device) (k : Nat) (f : Part → Part) : Device := d.setPart k (f (d.part k))

/-- PLL bits of a part's domain: what its step 5 locks, and what its step 5′ stops (R48, R87). -/
def partPlls (k : Nat) : List Nat × List Nat :=
  if k < 2 then ([3], [3, 4]) else if k < 4 then ([1], [1]) else if k < 6 then ([2], [2])
  else if k % 2 = 0 then ([8], [8]) else ([7], [7])

/-- Group of a sensor (R195). -/
def sensorGroup (i : Nat) : Nat := if i < 48 then 0 else if i < 56 then 1 else 2

/-- Threshold t of a group in °C (R203): 0 TCOLD_INHIBIT, 1 TCOLD_WARN, 2 THOT_WARN, 3 THOT_THROTTLE, 4 THOT_TRIP. -/
def Device.threshold (d : Device) (h : Half) (t g : Nat) : Int :=
  toSigned 8 (d.cp .a (thmP h) (0x40 + 0x10 * t + 4 * g))

def Device.sensor (d : Device) (h : Half) (i : Nat) : Sensor := tget {} (d.therm h).sensors i

/-- Valid sensors of a half. -/
def Device.validSensors (d : Device) (h : Half) : List Nat := (List.range 60).filter fun i => !(d.sensor h i).invalid

/-- Some valid sensor is at or above threshold t of its group; readings count quarters of a degree (R197). -/
def Device.anyHot (d : Device) (h : Half) (t : Nat) : Bool :=
  (d.validSensors h).any fun i => decide (4 * d.threshold h t (sensorGroup i) ≤ (d.sensor h i).reading)

/-- Every sensor of a half reads at or above TCOLD_INHIBIT, invalid ones apart (R85, R94, R196). -/
def Device.warmEnough (d : Device) (h : Half) : Bool :=
  (d.validSensors h).all fun i => decide (4 * d.threshold h 0 (sensorGroup i) ≤ (d.sensor h i).reading)

/-- Entry voltage of a part's domain (R86). -/
def Device.entryVolt (d : Device) (k : Nat) : Volt := vcode (d.cp .a pdmP (0xA0 + 4 * partDomain k) % 512)

/-- A half's self-warm is running (R95). -/
def Device.warming (d : Device) (h : Half) : Bool := tget false d.power.selfwarm h.idx

/-- VIN of a half is above the lockout release (R73). -/
def Device.vinOk (d : Device) (h : Half) : Bool := tget false d.pins.vinReleased h.idx

/-- Clusters of a part that switch. -/
def Device.running (d : Device) (k : Nat) : List Nat := (partClusters k).filter d.clusterActive

/-! ## Slews of a sequence -/

/-- Every rail of a part slews to one voltage (R87, R89), at a rate in 0.625 mV/µs or at the rail's SLEW. Brake does not act while
the domain is sequencing, and voltages are judged against the instantaneous reference (R117, R160, R168). -/
def Device.slewPart (d : Device) (k : Nat) (v : Volt) (rate : Option Nat) : Device :=
  let d := d.each (d.running k) Device.beginSequence
  d.each (partRails k) fun d r => d.railCommand r tagSequence ((railClusters r).map fun n => (n, v)) rate

/-- The internal pulse source of a CORE rail starts at the code of VFTAB(400 MHz), or of the entry voltage in self-warm (R87, R191,
R194). -/
def Device.startFollow (d : Device) (k : Nat) : Device :=
  if 2 ≤ k then d
  else
    let h := partHalf k
    let code := (if d.warming h then d.cp .a pdmP (0xA0 + 4 * partDomain k) else d.cp .a (govP h) 0x200) % 512
    d.each ((partRails k).filter fun r => d.ral r 0xA0 % 8 == 3) fun d r => d.modRail r fun x =>
      { x with follow := { x.follow with mapped := code * 2 ^ 15, filter := code * 2 ^ 30, code } }

/-- Slew to the operating point (R87, step 7): the set-points of the clusters; in self-warm the entry voltage (R95). -/
def Device.slewToOperate (d : Device) (k : Nat) : Device :=
  if k < 2 ∧ d.warming (partHalf k) then d.slewPart k (d.entryVolt k) none
  else
    d.each (partRails k) fun d r =>
      d.railCommand r tagSequence ((railClusters r).map fun n => (n, d.vset n)) none

/-- Every switching cluster of a part has its reference at the target. -/
def Device.slewed (d : Device) (k : Nat) : Bool :=
  (d.running k).all fun n => (d.cluster n).prot.fallback || (d.cluster n).vref == (d.cluster n).target

/-- ... and its sense points have lain within 25 mV of it for 16 consecutive samples (R87, steps 3 and 7). -/
def Device.settled (d : Device) (k : Nat) : Bool :=
  d.slewed k && (d.running k).all fun n => (d.cluster n).prot.fallback || decide (16 ≤ (d.cluster n).near)

/-- Commands of the part's clusters complete (R114). -/
def Device.completeSlews (d : Device) (k : Nat) : Device := d.each (d.running k) Device.slewDone

/-- Sequencing of a part's clusters is over. -/
def Device.endSequence (d : Device) (k : Nat) : Device :=
  d.each (partClusters k) fun d n => d.modCluster n fun x => { x with seqRate := none, seq := false }

/-! ## Events -/

/-- State code of DSTAT (R86). -/
def DState.code : DState → Nat
  | .off => 0 | .retain => 1 | .on => 2 | .up => 3 | .down => 4 | .abandon => 5 | .inhibited => 6 | .tripped => 7
  | .resetting => 8

/-- A state between two others. -/
def DState.sequencing : DState → Bool
  | .up | .down | .abandon | .resetting => true
  | _ => false

/-- The part whose state a domain shows: of a shared domain, the one that is sequencing, else the one that is not ON. -/
def Device.shownPart (d : Device) (i : Nat) : Nat :=
  match domainParts i with
  | [a, b] =>
    if (d.part a).st.sequencing then a
    else if (d.part b).st.sequencing then b
    else if (d.part a).st = .on then b else a
  | ps => ps.headD 0

/-- DSTAT of a domain (R86). -/
def Device.dstat (d : Device) (i : Nat) : W32 :=
  let p := d.part (d.shownPart i)
  w32 (p.fail.toNat * 2 ^ 16 + (if p.st.sequencing then p.step % 16 else 0) * 2 ^ 8 + p.st.code)

/-- EVENT DOMAIN_CHANGED once every part of the domain has reached the state (R87, R89, R268). -/
def Device.domainChanged (d : Device) (k : Nat) : Device :=
  let i := partDomain k
  let st := (d.part k).st
  if (domainParts i).all fun j => (d.part j).st == st then
    d.eventFrom (partHalf k) 0x0009 (i + st.code * 256) 0 0
  else d

/-! ## What leaving ON loses (R90) -/

/-- Lodes whose step runs on a bay of a half. -/
def Device.steppingOn (d : Device) (h : Half) : List Nat :=
  d.usedSlots.filter fun l =>
    (d.lode l).stepping && (d.lode l).programs.any fun e => e.2.bay.any fun k => bayHalf k == h

/-- The bays of a half lose their buffers and fall idle; a step that ran there cannot complete: its requests end with
ENGINE_FAULT (R90, R289, R332). -/
def Device.loseCore (d : Device) (h : Half) : Device :=
  let d := d.each (d.steppingOn h) fun d l =>
    (d.abandonStep l).endRequests (fun r => r.lode == l && r.st == .running) 0x0020
  let d := d.each (halfBays h) fun d k => d.modBay k fun b => { b with
    buffer := [], slot := none, op := 0, done := false, firing := false, outTiles := [] }
  d.modGov h fun g => { g with spenders := g.spenders.filter fun e => decide (28 ≤ e.1) }

/-- The queue fabric and the service cores of a half are without power: their state is gone, but for POWN and PSEQ of the
queue pages, which the island holds (R23, R101). -/
def Device.loseService (d : Device) (h : Half) : Device :=
  let gone (q : Nat) : Bool := queHalf q == h
  let d := { d with
    host := { d.host with queues := d.host.queues.filter fun e => !gone e.1 }
    service := { d.service with
      requests := d.service.requests.filter fun r => !gone r.queue
      sessions := d.service.sessions.filter fun s => !gone s.queue }
    regs := d.regs.filter fun e =>
      !((pageAt e.1).any fun (p : PageId) => p.1 == PageClass.que && pageHalf p.1 p.2 == h) || e.1 % 0x1000 == 0x24 || e.1 % 0x1000 == 0x1C }
  let d := (d.setOvman h {}).forgetAskers gone
  d.setPort h { d.port h with bme := false, haltVec := none }

/-- What a part loses when it leaves ON for anything but RETAIN; `kind` is the Canary kind that caused it. -/
def Device.loseContent (d : Device) (k kind : Nat) : Device :=
  let h := partHalf k
  if k < 2 then d.loseCore h
  else if k < 4 then d.loseSeam h kind
  else if k < 6 then d.loseDram h kind
  else if k % 2 = 0 then d.linkDown h 6
  else d.loseService h

/-- The credits of a half's queues follow its SEAM domain and its server (R90, R93, R246). -/
def Device.creditsFollow (d : Device) (k : Nat) : Device :=
  if (2 ≤ k ∧ k < 4) ∨ (6 ≤ k ∧ k % 2 = 1) then d.refreshCredits (partHalf k) else d

/-- A part drops at once: its cells stop, its PLLs stop, its content is lost (R73, R167, R198, R331). -/
def Device.dropPart (d : Device) (k : Nat) (st : DState) (fail : Byte) (kind : Nat) : Device :=
  let was := (d.part k).st
  let d := d.each (partClusters k) Device.stopCluster
  let d := d.each (partPlls k).2 fun d i => d.setLock (partHalf k) i false
  let d := d.modPart k fun p => { p with st, step := 0, fail := if fail = 0#8 then p.fail else fail, toRetain := false,
                                         fromRetain := false }
  let d := d.each (partRails k) Device.railComplete
  let d := if 4 ≤ k ∧ k < 6 then d.disableConvs (partHalf k) else d
  let d := if was = .off ∨ was = .inhibited ∨ was = .tripped then d else d.loseContent k kind
  d.creditsFollow k

/-! ## Steps of a sequence -/

/-- Begin a step of a power-up (R87, R88). -/
def Device.beginUp (d : Device) (k step : Nat) : Device :=
  let d := d.modPart k fun p => { p with step }
  match step with
  | 3 => d.slewPart k (d.entryVolt k) (some 8)
  | 5 =>
    if k < 2 then d.modGov (partHalf k) fun g =>
      { g with active := 0, locking := none, waiting := none, waitSlew := none, pong := false, retry := false }
    else d
  | 7 => d.slewToOperate k
  | _ => d

/-- Begin a step of a power-down (R89). -/
def Device.beginDown (d : Device) (k step : Nat) : Device :=
  let p := d.part k
  let h := partHalf k
  let d := d.modPart k fun p => { p with step }
  match step with
  | 7 =>
    let d := if k < 2 then d.modGov h fun g => { g with active := 0, locking := none, waiting := none, waitSlew := none } else d
    d.slewPart k (d.entryVolt k) none
  | 6 =>
    let idle (mine : Nat → Bool) : Device := d.modGov h fun g =>
      { g with spenders := tmap {} (fun k x => if mine k then { x with level := 0, need := none, lull := none } else x) g.spenders }
    if 2 ≤ k ∧ k < 4 then idle fun k => decide (28 ≤ k)
    else if k < 2 then idle fun k => decide (k < 28)
    else d
  | 5 => d.each (partPlls k).2 fun d i => d.setLock h i false
  | 3 =>
    let d := if 4 ≤ k ∧ k < 6 then d.disableConvs h else d
    d.slewPart k (if p.toRetain then 600 * mV else 550 * mV) (some 8)
  | 2 => d.each (partClusters k) Device.stopCluster
  | _ => d

/-- The reverse sequence begins at a step (R87, R89). -/
def Device.reverseFrom (d : Device) (k step : Nat) (st : DState) (fail : Byte) : Device :=
  let d := d.modPart k fun p =>
    { p with st, fail := if fail = 0#8 then p.fail else fail, fromRetain := false
             toRetain := if st = .abandon then false else p.toRetain }
  d.beginDown k step

/-- PD8, PD3 or PD4 fails in Deputy's own power-up: PD_SEQ_FAIL is HALT, and no control queue is served (R91). -/
def Device.bootFails (d : Device) (k : Nat) : Bool :=
  let i := partDomain k
  d.power.group.contains k && (i == 2 || i == 3 || i == 7)

/-- PD_SEQ_FAIL of a part (R87, R91). -/
def Device.seqReport (d : Device) (k : Nat) (reason : Byte) : Device :=
  let i := partDomain k
  let halt := d.bootFails k
  let d := { d with power := { d.power with bootHalt := d.power.bootHalt || halt } }
  let d := if halt then (d.refreshCredits .a).refreshCredits .b else d
  d.report (partHalf k)
    { unit := 0x67, kind := 0x1C, addr := pageBase pdmP + 0x60 + 4 * i, detail := i * 256 + reason.toNat, cond := halt }

/-- A half's self-warm is over (R95). -/
def Device.stopWarming (d : Device) (h : Half) : Device :=
  { d with power := { d.power with selfwarm := tset false h.idx false d.power.selfwarm } }

/-- A failed power-up: ABANDON from the step reached, with PD_SEQ_FAIL; a SEAM domain on its way from RETAIN loses its content,
and a self-warm of CORE ends (R87, R90, R91, R95). -/
def Device.seqFail (d : Device) (k : Nat) (reason : Byte) : Device :=
  let p := d.part k
  let d := d.reverseFrom k p.step .abandon reason
  let d := if k < 2 then d.stopWarming (partHalf k) else d
  let d := if p.fromRetain then d.loseContent k 0x1C else d
  d.seqReport k reason

/-- A part is ON. -/
def Device.isOn (d : Device) (k : Nat) : Bool := (d.part k).st == .on

/-- A half's cold inhibit holds (R94). -/
def Device.inhibited (d : Device) (h : Half) : Bool := (d.therm h).inhibit

/-- DOMMASK allows a power-up of domain i, by the copy of half h (R300, R301). -/
def Device.maskAllows (d : Device) (h : Half) (i : Nat) : Bool := (d.cp h depP 0x148).testBit i

/-- What step 1 finds of a domain's own conditions (R85, R87): the mask and the SEAM domain give 0x01, the thermal trip and the
cold inhibit 0x02 (which reason each gives is not stated; DESIGN CHOICE, LOG 63). -/
def Device.allowed (d : Device) (k : Nat) : Nat :=
  let h := partHalf k
  let cold := if k < 4 then d.inhibited h && !d.warming h && decide (k < 2)
    else decide (k < 6) && !d.warmEnough h
  let seam := if 4 ≤ k ∧ k < 6 then d.isOn (seamPart h)
    else if k = 6 ∨ k = 8 then d.isOn (seamPart .a) && d.isOn (seamPart .b) else true
  if d.pins.tripLatch || cold then 2
  else if !d.maskAllows h (partDomain k) || !seam then 1
  else 0

/-- Check of step 1 (R87): 0, or the reason of its failure. A set-point or ENTRYn outside VMIN-VMAX gives 0x01 (DESIGN CHOICE,
LOG 63). -/
def Device.step1 (d : Device) (k : Nat) (vin : Volt) : Nat :=
  let h := partHalf k
  let code := d.cp .a pdmP (0xA0 + 4 * partDomain k) % 512
  let fits (r : Nat) : Bool :=
    let lo := d.cp h depP (0x80 + 4 * r) % 512
    let hi := d.cp h depP (0xC0 + 4 * r) % 512
    let inside (v : Volt) : Bool := decide (vcode lo ≤ v ∧ v ≤ vcode hi)
    decide (lo ≤ code ∧ code ≤ hi) && (railClusters r).all fun n => inside (d.vset n)
  if !d.vinOk h || decide (vin ≤ 2150 * mV) then 1
  else if d.allowed k ≠ 0 then d.allowed k
  else if d.anyHot h 3 then 2
  else if !((partRails k).all fits) && !(k < 2 && d.warming h) then 1
  else 0

/-- AONCLK cycles of an outer-loop sample of a part: 128 switching periods (R142). -/
def Device.outerCounts (d : Device) (k : Nat) : Nat := 10240 / d.fswUnits (syncOf ((partClusters k).headD 0))

/-- Clusters start in groups of four per outer sample, in ascending number (R87, R117). -/
def Device.startGroups (d : Device) (k : Nat) (start : Device → Nat → Device) : Nat → List Nat → Device
  | 0, _ => d
  | n + 1, cs =>
    if cs.isEmpty then d
    else (((cs.take 4).foldl start d).advanceBy (partHalf k) (d.outerCounts k)).startGroups k start n (cs.drop 4)

/-- The clusters of a part start into their charged outputs, after one outer sample of measurement; each rail's start value is the
mean of its clusters' remote sense (R87, step 2; R117). None when a rail has no cluster that can start: FAIL 0x04. -/
def Device.step2 (d : Device) (k : Nat) (m : StartMeas) : Option Device :=
  let cs := partClusters k
  let vloc (n : Nat) : Volt := m.loc.getD (cs.findIdx (· == n)) 0
  let vrem (n : Nat) : Volt := m.remote.getD (cs.findIdx (· == n)) 0
  let ok := (partRails k).all fun r => (railClusters r).any fun n => d.canStart n || d.clusterActive n
  if !ok then none
  else
    let v0 (r : Nat) : Volt :=
      let able := (railClusters r).filter d.canStart
      let mean := roundDiv ((able.map vrem).sum) (max 1 able.length)
      if mean < 25 * mV then 0 else mean
    let able := cs.filter d.canStart
    -- fallback lasts until the domain next powers up (R174)
    let d := d.each cs fun d n => d.modCluster n fun x => { x with prot := { x.prot with fallback := false } }
    let d := d.advanceBy (partHalf k) (d.outerCounts k)
    let d := d.startGroups k (fun d n => d.startCluster n (v0 (railOf n)) (vrem n) (vloc n) m.vin) able.length able
    let fall := cs.any fun n => (d.cluster n).prot.fallback
    -- the limit of R174 lasts until the domain next powers up; the core clock in force is 400 MHz
    some (if k < 2 then d.modGov (partHalf k) fun g => { g with senseHeld := if fall then 0 else 24 } else d)

/-- The converters of a MEM part (R88): started once the entry voltage is reached, and all three confirmed. -/
def Device.convStep (d : Device) (k : Nat) : Option Device :=
  let h := partHalf k
  let n := tget 0 d.power.converters h.idx
  if 3 ≤ n then none
  else if (d.twi.depq ++ d.twi.own).any fun m => m.own && (dramConvs h).contains m.conv then some d
  else some (d.enableConv h n)

/-- A part has reached ON. -/
def Device.reachOn (d : Device) (k : Nat) : Device :=
  let d := (d.completeSlews k).endSequence k
  let d := d.modPart k fun p => { p with st := .on, step := 0, fromRetain := false }
  let h := partHalf k
  let d := if k < 2 then d.modGov h fun g =>
      { g with spenders := (g.spenders.filter fun e => decide (28 ≤ e.1)), fT := 0 } else d
  let d := if 4 ≤ k ∧ k < 6 then
      d.each ((List.range 4).map (2 + h.idx * 4 + ·)) fun d j =>
        -- the training may have repaired rows; how many is not stated (R235; DESIGN CHOICE, LOG 9)
        let (w, d) := d.fresh
        let x := d.mem j
        d.setMem j { x with failed := false, repairs := BitVec.ofNat 8 (satNat 255 (x.repairs.toNat + fld w 7 0)) }
    else d
  let d := if d.isOn (seamPart .a) && d.isOn (seamPart .b) then
      (Device.creditsFollow { d with power := { d.power with creditOpen := true } } (seamPart .a)).creditsFollow (seamPart .b)
    else d
  (d.creditsFollow k).domainChanged k

/-- A step of a power-up completes, and the next begins (R87, R88, R89). -/
def Device.upStep (d : Device) (k : Nat) (m : StartMeas) : Device :=
  let p := d.part k
  match p.step with
  | 1 =>
    let r := d.step1 k m.vin
    if r ≠ 0 then d.seqFail k (BitVec.ofNat 8 r)
    else if p.fromRetain then d.beginUp k 3
    else d.beginUp k 2
  | 2 => (match d.step2 k m with
    | none => d.seqFail k 4#8
    | some d => d.beginUp k 3)
  | 3 =>
    if !d.settled k then d
    else
      let d := d.completeSlews k
      if 4 ≤ k ∧ k < 6 then
        (match d.convStep k with
        | some d => d
        | none => d.beginUp k 5)
      else d.beginUp k 5
  | 5 => (d.each (partPlls k).1 fun d i => d.setLock (partHalf k) i true).beginUp k 6
  | 6 => d.beginUp k 7
  | 7 => if d.settled k then d.reachOn k else d
  | _ => d

/-- Work of a part's units that step 6′ waits for: bays finish their step, and movers the tiles that they have under way to or
from the seam and DRAM (R89). A warm reset and a failed sequence do not wait. -/
def Device.quiet (d : Device) (k : Nat) : Bool :=
  let h := partHalf k
  (d.part k).st == .abandon ||
    (if k < 2 then (d.steppingOn h).isEmpty
     else if k < 6 then (List.range 16).all fun m => moverHalf m != h || (d.mover m).moving.isNone
     else true)

/-- The last step of a power-down: OFF or RETAIN. -/
def Device.reachOff (d : Device) (k : Nat) (st : DState) : Device :=
  let d := (d.endSequence k).modPart k fun p => { p with st, step := 0, toRetain := false, fromRetain := false }
  let d := if k < 2 then d.each (halfBays (partHalf k)) fun d b => d.modBay b fun x => { x with buffer := [] } else d
  (d.creditsFollow k).domainChanged k

/-- A step of a power-down or of a reverse sequence completes (R89). -/
def Device.downStep (d : Device) (k : Nat) : Device :=
  let p := d.part k
  match p.step with
  | 7 => if d.slewed k then d.beginDown k 6 else d
  | 6 => if d.quiet k then d.beginDown k 5 else d
  | 5 => d.beginDown k 4
  | 4 => d.beginDown k 3
  | 3 =>
    if !d.slewed k then d
    else if p.toRetain then d.reachOff k .retain
    else d.beginDown k 2
  | 2 => d.beginDown k 1
  | _ => d.reachOff k .off

/-- The step in progress of a part completes. -/
def Device.sequence (d : Device) (k : Nat) (m : StartMeas) : Device :=
  match (d.part k).st with
  | .up => d.upStep k m
  | .down | .abandon => d.downStep k
  | .resetting => (d.modPart k fun p => { p with st := .on, step := 0 }).creditsFollow k
  | _ => d

/-! ## Commands (R85) -/

/-- Begin a power-up of a part. -/
def Device.startUp (d : Device) (k : Nat) : Device :=
  let cs := if 4 ≤ k ∧ k < 6 then tset 0 (partHalf k).idx 0 d.power.converters else d.power.converters
  let d := { d with power := { d.power with converters := cs } }
  let d := if k < 2 then
      let h := partHalf k
      let codes := (List.range 25).map fun i => d.cp .a (govP h) (0x200 + 4 * i) % 512
      let lo := codes.foldl min 511
      let hi := codes.foldl max 0
      d.each (partRails k) fun d r => (d.setReg .a (ralP r) 0xA4 (cpWord lo)).setReg .a (ralP r) 0xA8 (cpWord hi)
    else d
  let d := d.each (partRails k) fun d r => d.modRail r fun x => { x with shutDown := false }
  let d := d.modPart k fun p => { p with fromRetain := p.st == .retain, st := .up, toRetain := false }
  (d.startFollow k).beginUp k 1

/-- Begin a power-down of a part that is ON or in RETAIN (R89, R90). -/
def Device.startDown (d : Device) (k : Nat) (toRetain : Bool) (kind : Nat := 0) : Device :=
  let p := d.part k
  let first := if p.st = .retain then 3 else 7
  let d := d.modPart k fun p => { p with st := .down, toRetain }
  let d := if toRetain ∨ k < 2 then d else d.loseContent k kind
  (d.beginDown k first).creditsFollow k

/-- OFF for a part, from wherever it stands; a power-up is abandoned with FAIL 0x0A, and a domain reset under way ends with the
power-down. -/
def Device.partOff (d : Device) (k : Nat) (kind : Nat := 0) : Device :=
  let p := d.part k
  match p.st with
  | .on | .retain | .resetting => d.startDown k false kind
  | .up =>
    let d := d.reverseFrom k p.step .abandon 0x0A#8
    if p.fromRetain then d.loseContent k kind else d
  | .down =>
    if p.toRetain then
      let d := d.modPart k fun p => { p with toRetain := false }
      (if p.step = 3 then d.beginDown k 3 else d).loseContent k kind
    else d
  | _ => d

/-- A half counts as released (R312). -/
def Device.halfReleased (d : Device) (h : Half) : Bool :=
  bit (d.reg h ovmP 0x54) h.idx
  || (!d.anyServing
      && !(d.usedSlots.any fun l => (d.lode l).tensors.any fun t => t.inSeam && t.half == h)
      && !(d.service.sessions.any fun s => s.half == h && s.inSeam))

/-- Conditions of a power-up of domain i (R85). -/
def Device.mayPowerUp (d : Device) (i : Nat) : Bool :=
  if i < 2 then
    let h := partHalf i
    d.vinOk h && !d.pins.tripLatch && !d.inhibited h
  else if i < 4 then
    let h := partHalf i
    d.vinOk h && !d.pins.tripLatch && !d.inhibited h
  else if i < 6 then d.isOn (seamPart (partHalf i)) && d.warmEnough (partHalf i) && !d.pins.tripLatch
  else if i = 6 then d.isOn (seamPart .a) && d.isOn (seamPart .b)
  else false

/-- Every part of a domain satisfies a test. -/
def Device.allParts (d : Device) (i : Nat) (f : Part → Bool) : Bool := (domainParts i).all fun k => f (d.part k)

/-- The DOMAIN check of a command CMD for domain i, 0 for PD1 (R43, R85, R95). -/
def Device.commandOk (d : Device) (i cmd : Nat) : Bool :=
  let h := partHalf ((domainParts i).headD 0)
  let is (st : DState) : Bool := d.allParts i fun p => p.st == st
  let off : Bool := d.allParts i fun p => p.st == .off || p.st == .inhibited || p.st == .tripped
  let seq := (domainParts i).any fun k => (d.part k).st.sequencing
  let on := d.allParts i fun p => p.st == .on || p.st == .resetting
  if decide (i < 2) && (d.warming .a || d.warming .b) && cmd != 0 then false
  else match cmd with
    | 0 => !seq
    | 1 =>
      if seq && !on then decide (i ≠ 7)
      else if off then true
      else if i < 2 then true
      else if i < 4 then
        is .retain || ((d.part (corePart h)).st.pageCode == some 0 && (d.part (memPart h)).st.pageCode == some 0
          && d.halfReleased h)
      else if i < 6 then (d.part (corePart h)).st.pageCode == some 0
      else if i = 6 then !(d.usedSlots.any fun l => (d.lode l).spans && (d.lode l).st != .loading)
      else false
    | 2 =>
      decide (i = 2 ∨ i = 3) && !seq
        && (is .retain || (is .on && (d.part (corePart h)).st.pageCode == some 0
          && (d.part (memPart h)).st.pageCode == some 0 && d.halfReleased h))
    | 3 => !seq && (is .on || ((off || is .retain) && d.mayPowerUp i))
    | 4 => !seq && is .on
    | _ => false

end Sys2Proof.Machine
end

