-- ==== Sys2Proof/Machine/Queues.lean ====
section
/-! DEFINITION. Queues: window and doorbell, parsing, queue commands, response rings, mailboxes, messages (R240-R261,
R269, R292). -/

namespace Sys2Proof.Machine

/-! ## The ingress ring (R248) -/

/-- Bytes at cumulative ingress positions; the ring holds position p at p mod C. -/
def ringSlice (ring : List Host.Cell) (c p n : Nat) : List Byte :=
  let a := p % c
  if a + n ≤ c then getBytes ring a n else getBytes ring a (c - a) ++ getBytes ring 0 (n - (c - a))

/-- Bytes written at a cumulative ingress position; one write never covers the whole ring. -/
def ringPut (ring : List Host.Cell) (c p : Nat) (bs : List Byte) : List Host.Cell :=
  let a := p % c
  if a + bs.length ≤ c then putBytes ring a bs
  else putBytes (putBytes ring a (bs.take (c - a))) 0 (bs.drop (c - a))

/-- Cumulative positions lo to lo + n − 1, modulo 2^32. -/
def positions (lo n : Nat) : List Nat := (List.range n).map fun i => (lo + i) % 2 ^ 32

/-- A cumulative position lies in the n bytes from lo on, modulo 2^32. -/
def within (lo n p : Nat) : Bool := decide ((p + 2 ^ 32 - lo % 2 ^ 32) % 2 ^ 32 < n)

/-- Marks of bytes below the accepted count are never read again. -/
def Queue.dropMarks (x : Queue) : Queue :=
  let live (p : Nat) : Bool := within x.accBytes.toNat (2 ^ 31) p
  { x with missing := x.missing.filter live, poison := x.poison.filter live }

/-- The port of a half's queues serves them: its link is up while PD8 is ON and PERSTh_N is high (R246, R260). -/
def Device.portReady (d : Device) (h : Half) : Bool :=
  (d.part (svcPart h)).st == .on && !(tget true d.pins.persthLow h.idx) && !d.pins.porstLow

/-- A write into a queue's window (R242, R248): bytes whose cumulative position lies beyond BYTELIM at arrival are discarded. -/
def Device.windowWrite (d : Device) (q off : Nat) (bytes : List Byte) (poisoned : Bool) : Device :=
  let x := d.queue q
  if x.st ≠ .active ∨ x.discard ∨ !d.portReady (queHalf q) ∨ 0x10000 < off + bytes.length then d
  else
    let c := d.queCap q
    let p0 := x.wb.toNat + off
    let room := (d.byteLimit q - w32 p0).toNat
    let ok := if room ≤ 2 ^ 31 then satNat room bytes.length else 0
    let good := positions p0 ok
    let bad := positions (p0 + ok) (bytes.length - ok)
    d.setQueue q
      { x with
        ring := ringPut x.ring c p0 (bytes.take ok)
        poison := (if poisoned then good else []) ++ x.poison.filter fun p => !good.contains p
        missing := bad ++ x.missing.filter fun p => !good.contains p && !bad.contains p }

/-! ## Parsing (R251-R254) -/

/-- What a span position holds. -/
inductive Parsed where
  | credit
  | framing (detail : Nat)
  | packet (p : Packet)
  deriving DecidableEq, Repr

/-- Some position of a range is in a list. -/
def touches (xs : List Nat) (lo n : Nat) : Bool := xs.any (within lo n)

/-- HCHK of a header (R262). -/
def headerOk (h : List Byte) : Bool := w32 (fieldAt h 28 4) == ~~~xorWords (h.take 28)

/-- The framing checks at one position of a span (R252). Bytes discarded at arrival decide OVERRUN before the checks that
their stale content would fail. -/
def Device.parseOne (d : Device) (q pos end_ : Nat) : Parsed :=
  let x := d.queue q
  let c := d.queCap q
  if touches x.missing pos (min 32 (end_ - pos)) then .credit
  else if end_ < pos + 32 then .framing 4
  else
    let h := ringSlice x.ring c pos 32
    let len := fieldAt h 8 4
    let pad := pad64 len
    let seq := w32 (fieldAt h 12 4)
    if fieldAt h 0 2 ≠ 0x58C6 then .framing 1
    else if fieldAt h 2 1 ≠ 1 then .framing 2
    else if !headerOk h then .framing 3
    else if len < 32 ∨ 65536 < len ∨ end_ < pos + pad then .framing 4
    else if c < pad ∨ touches x.missing pos pad ∨ beyond seq (d.pktLimit q) then .credit
    else if fieldAt h 4 2 ≠ q then .framing 5
    else if seq ≠ x.accSeq + 1#32 then .framing 6
    else
      let bytes := ringSlice x.ring c pos len
      let crc := if len = 32 then 0#32 else crc32c (bytes.drop 32)
      if fieldAt h 24 4 ≠ crc.toNat then .framing 7
      else if touches x.poison pos pad then .framing 8
      else .packet { seq, bytes, padded := pad, accepted := d.tb (queHalf q) }

/-- Packets discarded from a span, the failing one included: those whose headers still give a length within it. -/
def Device.countRest (d : Device) (q end_ : Nat) : Nat → Nat → Nat
  | 0, _ => 0
  | n + 1, pos =>
    if end_ ≤ pos then 0
    else if end_ < pos + 32 then 1
    else
      let h := ringSlice (d.queue q).ring (d.queCap q) pos 32
      let len := fieldAt h 8 4
      if fieldAt h 0 2 ≠ 0x58C6 ∨ len < 32 ∨ 65536 < len ∨ end_ < pos + pad64 len then 1
      else 1 + d.countRest q end_ n (pos + pad64 len)

/-- Unit number of a queue (R322). -/
def queUnit (q : Nat) : Nat := 0x100 + q % 512

/-- The rest of a span is discarded, and reported once (R253). -/
def Device.discardSpan (d : Device) (q pos end_ : Nat) (credit : Bool) (detail : Nat) : Device :=
  let x := d.queue q
  let n := d.countRest q end_ ((end_ - pos) / 32 + 1) pos
  let first := (x.accSeq + 1#32).toNat
  let lo := satNat 0xFFFF (fld x.drops 15 0 + if credit then n else 0)
  let hi := satNat 0xFFFF (fld x.drops 31 16 + if credit then 0 else n)
  let d := d.setQueue q { x with discard := true, drops := w32 (hi * 2 ^ 16 + lo) }
  let d := (d.perr .a (queP q) (if credit then 32 else 16)).report (queHalf q) (unitReport (queUnit q) 0x57 (queP q))
  let d := if credit then d.queueEvent q 0x0001 0x0012 first n
    else d.pushOut q (statusPkt (d.stamp q) (w32 first) 0x0011 detail first n)
  d.mailDue q

/-! ## Content checks that every packet passes (R244, R254, R262, R263, R272) -/

def Packet.op (p : Packet) : Nat := fieldAt p.bytes 3 1
def Packet.flags (p : Packet) : Nat := fieldAt p.bytes 6 2
def Packet.session (p : Packet) : W32 := w32 (fieldAt p.bytes 16 4)
def Packet.lode (p : Packet) : Nat := fieldAt p.bytes 20 2
def Packet.cls (p : Packet) : Nat := fieldAt p.bytes 22 1
/-- Total length. -/
def Packet.len (p : Packet) : Nat := p.bytes.length

/-- NOTIFY, MORE and STREAM (R262). -/
def Packet.notify (p : Packet) : Bool := p.flags.testBit 0
def Packet.more (p : Packet) : Bool := p.flags.testBit 1
def Packet.stream (p : Packet) : Bool := p.flags.testBit 2

/-- Queues an opcode is allowed on. -/
inductive QueueKind where
  | request | control | any
  deriving DecidableEq, Repr

/-- The opcode table: queues, shortest and longest length, and the step between lengths (R263). -/
def opShape : Nat → Option (QueueKind × Nat × Nat × Nat)
  | 0x01 => some (.request, 96, 65536, 4)
  | 0x02 => some (.request, 52, 65536, 4)
  | 0x03 => some (.request, 40, 40, 1)
  | 0x04 => some (.request, 40, 40, 1)
  | 0x05 => some (.request, 32, 32, 1)
  | 0x10 => some (.control, 96, 96, 1)
  | 0x11 => some (.control, 49, 65536, 1)
  | 0x12 => some (.control, 32, 32, 1)
  | 0x13 => some (.control, 32, 32, 1)
  | 0x20 => some (.control, 48, 48, 1)
  | 0x21 => some (.control, 49, 65536, 1)
  | 0x22 => some (.control, 32, 32, 1)
  | 0x30 => some (.any, 48, 65536, 8)
  | _ => none

/-- The first failing check of opcode and queue, length, flags and reserved byte, class, and boot mode; 0 when all pass. -/
def Packet.content (p : Packet) (q : Nat) (boot : Bool) : Nat :=
  match opShape p.op with
  | none => 0x10
  | some (k, lo, hi, step) =>
    if (k = .request ∧ isControl q) ∨ (k = .control ∧ !isControl q) then 0x10
    else if p.len < lo ∨ hi < p.len ∨ (p.len - lo) % step ≠ 0 then 0x11
    else if p.flags / 8 ≠ 0 ∨ fieldAt p.bytes 23 1 ≠ 0 then 0x12
    else if (if p.op = 0x01 then 3 else 0) < p.cls then 0x13
    else if boot ∧ p.op < 0x20 then 0x15
    else 0

/-- A packet in the ingress ring that is a request the queue's reset ends (R259; DEDUCED, LOG 74). -/
def Packet.opens (p : Packet) (q : Nat) : Bool := p.op == 0x01 && p.content q false == 0

/-- Refuse a packet with a status. A refused REQUEST ends with it: its answer carries FINAL and the packet's lode and
class, and is its first (R254, R262, R266, R295). -/
def Device.refuse (d : Device) (q : Nat) (p : Packet) (code detail : Nat) : Device :=
  if p.op = 0x01 then
    let out : OutPkt := { statusPkt (d.stamp q) p.seq code detail 0 0 with
      flags := 1#16, lode := BitVec.ofNat 16 p.lode, cls := BitVec.ofNat 8 p.cls
      first := if p.cls < 4 then some (p.cls, p.accepted) else none }
    (d.pushOut q out).freeCredit q p.padded
  else d.answer q p code detail

/-- Requests still in the ingress rings of some queues end with a status (R289). -/
def Device.endUnread (d : Device) (mine : Nat → Bool) (code : Nat) : Device :=
  d.each (d.queueNumbers.filter mine) fun d q =>
    let x := d.queue q
    let d := d.setQueue q { x with inbox := x.inbox.filter fun p => !p.opens q }
    d.each (x.inbox.filter (·.opens q)) fun d p => d.refuse q p code 0

/-- CONFIG keys: those of Deputy, and the service keys (R294, R303). -/
def configKeys : List Nat :=
  [1, 2, 3, 4, 5, 6, 7, 8, 0x10, 0x11, 0x100, 0x101] ++ (List.range 10).map (0x200 + ·)

/-- Item i of a CONFIG packet: key and value (R264). -/
def Packet.item (p : Packet) (i : Nat) : Nat × Nat := (fieldAt p.bytes (40 + 8 * i) 4, fieldAt p.bytes (44 + 8 * i) 4)

/-- A packet that no command of its own takes: an opcode outside the table, or a CONFIG whose first key is not listed. -/
def Packet.stray (p : Packet) : Bool :=
  (opShape p.op).isNone || (p.op == 0x30 && !configKeys.contains (p.item 0).1)

/-- The detail of the answer to such a packet (R254, R294, R303). -/
def Packet.strayDetail (p : Packet) (q : Nat) (boot : Bool) : Nat :=
  let c := p.content q boot
  if c ≠ 0 then c
  else if p.len ≠ 40 + 8 * fieldAt p.bytes 32 2 then 0x11
  else if !zerosAt p.bytes 34 6 then 0x12
  else 0x14

/-- Accept a packet (R251): it waits in the queue for its own command; one that has none is answered at once (R254). -/
def Device.acceptPacket (d : Device) (q : Nat) (p : Packet) : Device :=
  let d := (d.modQueue q fun x => { x with accSeq := p.seq, accBytes := x.accBytes + w32 p.padded }).accountZero q
  if p.stray then d.answer q p 0x0011 (p.strayDetail q (d.serverOf q == .deputy))
  else d.modQueue q fun x => { x with inbox := x.inbox ++ [p] }

/-- Parse a span from its first byte. -/
def Device.parseSpan (q end_ : Nat) : Nat → Nat → Device → Device
  | 0, _, d => d
  | n + 1, pos, d =>
    if end_ ≤ pos then d
    else match d.parseOne q pos end_ with
      | .credit => d.discardSpan q pos end_ true 0
      | .framing k => d.discardSpan q pos end_ false k
      | .packet p => (d.acceptPacket q p).parseSpan q end_ n (pos + p.padded)

/-- A doorbell of LEN units (R250); under DISCARD it is discarded without a report (R253). -/
def Device.doorbell (d : Device) (m : Master) (q : Nat) (v : W32) : Bool × Device :=
  let n := fld v 10 0
  let x := d.queue q
  if x.discard then (false, d)
  else if n = 0 ∨ 1024 < n then
    (false, (d.perr .a (queP q) 4).report (queHalf q)
      { unitReport (queUnit q) 0x56 (queP q) 0x50 with master := masterCode m, access := 1 })
  else if x.st ≠ .active then (false, d)
  else
    let pos := x.wb.toNat
    let d := d.setQueue q { x with wb := x.wb + w32 (n * 64) }
    (true, (Device.parseSpan q (pos + n * 64) (n + 1) pos d).modQueue q Queue.dropMarks)

def execDoorbell (m : Master) (q : Fin 1024) (v : W32) (s : State) : Host.Outcome State Fault Refusal :=
  runOn s fun d => d.guarded m (queP q) 0x50 v fun d => d.doorbell m q v

/-- A write of RHEAD (R255). -/
def Device.rheadWrite (d : Device) (q : Nat) (v : W32) : Bool × Device :=
  let x := d.queue q
  if v.toNat % 64 ≠ 0 ∨ (x.rtail - x.rheadV).toNat < (v - x.rheadV).toNat then (false, d.perr .a (queP q) 8)
  else (true, d.setQueue q { x with rheadV := v })

def execRhead (m : Master) (q : Fin 1024) (v : W32) (s : State) : Host.Outcome State Fault Refusal :=
  runOn s fun d => d.guarded m (queP q) 0x54 v fun d => d.rheadWrite q v

/-! ## Queue commands (R259) -/

/-- A command that the present state does not list. -/
def Device.badCommand (d : Device) (q : Nat) : Bool × Device := (false, d.perr .a (queP q) 2)

/-- ENABLE: fresh counters, first credits, first mailbox write. -/
def Device.enableQueue (d : Device) (q : Nat) : Bool × Device :=
  let x := d.queue q
  if x.st ≠ .disabled ∨ d.ringBase q = 0#64 ∨ d.mailbox q = 0#64 then d.badCommand q
  else
    let d := d.setQueue q { st := .active, pktLim := w32 (d.queDepth q), byteLim := w32 (d.queCap q), mailDue := true }
    let d := match x.resetEvent with
      | none => d
      | some (a, b) => d.queueEvent q 0x0003 0 a b
    let d := if d.serverOf q = .deputy then d.queueEvent q 0x000F 0 0 0 else d
    (true, d.accountZero q)

/-- The queue has an open request or session. -/
def Device.queueBusy (d : Device) (q : Nat) : Bool :=
  d.service.requests.any (·.queue == q) || d.service.sessions.any (·.queue == q)

/-- An accepted packet of the queue has not had its answer yet: one still to be taken, or one whose answer waits for what it asked
for. Accepted packets are never dropped, so its answer is output that is pending (R253, R259; DEDUCED, LOG 74). -/
def Device.owesAnswer (d : Device) (q : Nat) : Bool :=
  let mine (a : Asker) : Bool := a.queue == q
  !(d.queue q).inbox.isEmpty || d.service.closings.any (fun c => mine c.asker)
    || d.compute.lodes.any (fun e => e.2.asker.any mine || e.2.unloadAsker.any mine)
    || d.deputy.overman.any (fun e => e.2.asker.any mine)
    || d.nvm.current.any (fun r => r.askers.any mine) || d.nvm.next.any (fun r => r.askers.any mine)

/-- DISABLE: only an idle queue. -/
def Device.disableQueue (d : Device) (q : Nat) : Bool × Device :=
  let x := d.queue q
  if x.st ≠ .active ∨ d.queueBusy q ∨ d.owesAnswer q ∨ !x.out.isEmpty then d.badCommand q
  else (true, d.setQueue q { x with st := .disabled, saturated := false, zeroSince := none })

/-- The buffer is discarded, and the requests and sessions end with CANCELLED. -/
def Device.emptyQueue (d : Device) (q : Nat) : Device :=
  let x := d.queue q
  if x.st = .resetting then d
  else
    let reqs := (d.service.requests.filter (·.queue == q)).length + (x.inbox.filter (·.opens q)).length
    let sess := (d.service.sessions.filter (·.queue == q)).length
    let d := d.setQueue q { st := .resetting, resetEvent := some (reqs, sess) }
    let d := d.forgetAskers (· == q)
    let d := d.modRequests fun rs => (rs.filter fun r => !(r.queue == q && r.st != .running)).map fun r =>
      if r.queue = q then { r with marked := true } else r
    d.finishReset q

/-- RESET: the queue is emptied, and its QUE page returns to its reset values (R101, R259). -/
def Device.resetQueue (d : Device) (q : Nat) : Device :=
  if (d.queue q).st = .resetting then d else (d.restorePage [queHalf q] (queP q) 0).emptyQueue q

/-- RESUME: PORT_RESET first, then the held output (R102). -/
def Device.resumeQueue (d : Device) (q : Nat) : Bool × Device :=
  let x := d.queue q
  if x.st ≠ .held then d.badCommand q
  else
    let ev := eventPkt (d.stamp q) 0x0002 0 x.accSeq.toNat 0
    (true, (d.setQueue q { x with st := .active, rtail := 0#32, rheadV := 0#32, wb := x.accBytes
                                  out := ev :: x.out }).mailDue q)

/-- RESYNC: WB returns to the accepted count (R253). -/
def Device.resyncQueue (d : Device) (q : Nat) : Bool × Device :=
  let x := d.queue q
  if x.st ≠ .active ∨ !x.discard then d.badCommand q
  else (true, (d.setQueue q { x with wb := x.accBytes, discard := false }).mailDue q)

/-- A write of QCMD by its code. -/
def Device.queueCommand (d : Device) (q code : Nat) : Bool × Device :=
  match code with
  | 1 => d.enableQueue q
  | 2 => d.disableQueue q
  | 3 => (true, d.resetQueue q)
  | 4 => d.resumeQueue q
  | 5 => d.resyncQueue q
  | _ => d.badCommand q

def execQEnable (m : Master) (q : Fin 1024) (s : State) : Host.Outcome State Fault Refusal :=
  runOn s fun d => d.guarded m (queP q) 0x64 1#32 fun d => d.enableQueue q

def execQDisable (m : Master) (q : Fin 1024) (s : State) : Host.Outcome State Fault Refusal :=
  runOn s fun d => d.guarded m (queP q) 0x64 2#32 fun d => d.disableQueue q

def execQReset (m : Master) (q : Fin 1024) (s : State) : Host.Outcome State Fault Refusal :=
  runOn s fun d => d.guarded m (queP q) 0x64 3#32 fun d => (true, d.resetQueue q)

def execQResume (m : Master) (q : Fin 1024) (s : State) : Host.Outcome State Fault Refusal :=
  runOn s fun d => d.guarded m (queP q) 0x64 4#32 fun d => d.resumeQueue q

def execQResync (m : Master) (q : Fin 1024) (s : State) : Host.Outcome State Fault Refusal :=
  runOn s fun d => d.guarded m (queP q) 0x64 5#32 fun d => d.resyncQueue q

/-! ## MSI-X (R239, R258; PRESUMED, LOG 53) -/

/-- A DW of the MSI-X table after reset: PCI Express masks every vector. -/
def msixReset (i : Nat) : W32 := if i % 4 = 3 then 1#32 else 0#32

/-- A DW of the MSI-X table: address, upper address, data and vector control of each of the 256 vectors. -/
def Port.tableWord (x : Port) (i : Nat) : W32 := tget (msixReset i) x.vectors i

/-- Vector control masks the vector. -/
def Port.masked (x : Port) (v : Nat) : Bool := bit (x.tableWord (4 * v + 3)) 0

/-- A DW of the Pending Bit Array. -/
def Port.pendingWord (x : Port) (i : Nat) : W32 :=
  w32 (((List.range 32).map fun b => flag (x.waiting.contains (32 * i + b)) b).sum)

/-! ## Output to host memory (R240, R241, R255-R258, R269) -/

/-- The port may write to host memory (R241, R260). -/
def Device.mayPost (d : Device) (h : Half) : Bool := (d.port h).bme && (d.port h).d0 && d.portReady h

def Device.post (d : Device) (h : Half) (ps : List Posted) : Device :=
  let x := d.port h
  d.setPort h { x with posted := x.posted ++ ps }

/-- The posted writes of a packet at RTAIL, wrapping at the ring's end. -/
def ringPosts (base : W64) (size tail : Nat) (bs : List Byte) : List Posted :=
  let a := tail % size
  if a + bs.length ≤ size then [.bytes (base + BitVec.ofNat 64 a) bs]
  else [.bytes (base + BitVec.ofNat 64 a) (bs.take (size - a)), .bytes base (bs.drop (size - a))]

/-- Hold back a message whose table entry is masked, else write it (R239, R258; PRESUMED, LOG 53). -/
def Device.postMsix (d : Device) (h : Half) (vec : Byte) : Device :=
  let x := d.port h
  if x.masked vec.toNat then d.setPort h { x with waiting := addOnce vec.toNat x.waiting }
  else d.post h [.msix vec]

/-- The messages whose mask has gone are written (R239; PRESUMED, LOG 53). -/
def Device.sendWaiting (d : Device) (h : Half) : Device :=
  let x := d.port h
  if !d.mayPost h then d
  else
    let ready := x.waiting.filter fun v => !x.masked v
    let posted := x.posted ++ ready.map fun v => Posted.msix (BitVec.ofNat 8 v)
    d.setPort h { x with waiting := x.waiting.filter x.masked, posted }

/-- Write the oldest waiting packet when the ring has room; after an event leaves a full backlog, EVENTS_LOST follows the
events that were in it. -/
def Device.ringWrite (d : Device) (q : Nat) : Device :=
  let x := d.queue q
  match x.out with
  | [] => d
  | p :: rest =>
    let used := (x.rtail - x.rheadV).toNat
    if x.st ≠ .active ∨ !d.mayPost (queHalf q) ∨ d.ringSize q < used + p.padded then d
    else
      let ps := ringPosts (d.ringBase q) (d.ringSize q) x.rtail.toNat (p.bytes q x.outSeq)
      let lost := decide (0 < x.lostEvents) && p.opcode == 0x83#8
      let rest := if lost then rest ++ [eventPkt (d.stamp q) 0x0010 0 x.lostEvents 0] else rest
      let d := (d.post (queHalf q) ps).noteLatency q p
      let y := { x with
        out := rest, rtail := x.rtail + w32 p.padded, outSeq := x.outSeq + 1#32
        lostEvents := if lost then 0 else x.lostEvents }
      ((d.setQueue q y).mailDue q).payCredits q

/-- Flags of the mailbox (R256). -/
def Device.mailFlags (d : Device) (q : Nat) : Nat :=
  let x := d.queue q
  flag x.saturated 0 + flag (d.serverOf q == .deputy) 1 + flag x.discard 2 + flag (!x.out.isEmpty) 3

/-- The 32 bytes of a mailbox write. -/
def Device.mailBytes (d : Device) (q : Nat) (gen : W32) : List Byte :=
  let x := d.queue q
  leBytes 4 gen.toNat ++ leBytes 4 (d.pktLimit q).toNat ++ leBytes 4 (d.byteLimit q).toNat ++ leBytes 4 x.rtail.toNat
    ++ leBytes 4 x.accSeq.toNat ++ leBytes 4 (d.mailFlags q) ++ leBytes 4 ((d.stamp q).toNat % 2 ^ 32) ++ leBytes 4 gen.toNat

/-- The mailbox write that pending changes are combined into. -/
def Device.mailWrite (d : Device) (q : Nat) : Device :=
  let x := d.queue q
  if x.st ≠ .active ∨ !x.mailDue ∨ !d.mayPost (queHalf q) then d
  else
    let gen := x.gen + 1#32
    let d := d.post (queHalf q) [.bytes (d.mailbox q) (d.mailBytes q gen)]
    d.setQueue q { x with gen, mailDue := false, unsignalled := x.unsignalled + 1
                          firstMail := if x.unsignalled = 0 then d.stamp q else x.firstMail }

def execMailboxWrite (q : Fin 1024) (s : State) : Host.Outcome State Fault Refusal := runOn s fun d => d.mailWrite q

/-- MSI-X moderation (R258): by count at once, else by time when the time condition is enabled. -/
def Device.msixSend (d : Device) (q : Nat) : Device :=
  let x := d.queue q
  let w := d.reg .a (queP q) 0x60
  let en := bit (d.reg .a (queP q) 0x40) 24
  let byCount := decide (fld w 15 8 < x.unsignalled)
  let byTime := decide (fld w 31 16 ≠ 0 ∧ 0 < x.unsignalled)
  if !en ∨ x.st ≠ .active ∨ !d.mayPost (queHalf q) ∨ !(byCount || byTime) then d
  else
    let d := if byCount then d else d.advanceTo (queHalf q) (x.firstMail + BitVec.ofNat 64 (fld w 31 16 * 100))
    (d.postMsix (queHalf q) (BitVec.ofNat 8 (fld w 7 0))).modQueue q fun y => { y with unsignalled := 0 }

def execMsixMessage (q : Fin 1024) (s : State) : Host.Outcome State Fault Refusal := runOn s fun d => d.msixSend q

/-- The message of the safe state: sent at once where the port may post, else kept by a port that is up (R241, R337). -/
def Device.postHalt (d : Device) (h : Half) (vec : BitVec 8) : Device :=
  if d.mayPost h then d.postMsix h vec
  else if d.portReady h then d.setPort h { d.port h with haltVec := some vec }
  else d

/-- A message kept while the port might not post goes out once it may (R241). -/
def Device.sendKept (d : Device) (h : Half) : Device :=
  match (d.port h).haltVec with
  | none => d
  | some vec => if d.mayPost h then (d.setPort h { d.port h with haltVec := none }).postMsix h vec else d

/-- Bus Master Enable and the power state of a port change; what was held is written by the commands above (R241), the
safe state's message with this one. -/
def execBusMasterEnable (port : Half) (enabled d0 : Bool) (s : State) : Host.Outcome State Fault Refusal :=
  runOn s fun d => (d.setPort port { d.port port with bme := enabled, d0 }).sendKept port |>.sendWaiting port

/-- Write everything a queue can write now: what precedes the loss of its power (R96). -/
def Device.flushQueue (d : Device) (q : Nat) : Device :=
  ((List.range (d.queue q).out.length).foldl (fun d _ => d.ringWrite q) d).mailWrite q

/-! ## Saturation (R292) -/

/-- Counts at zero credit in the window that has just ended. -/
def Queue.windowSpan (x : Queue) (t : Nat) : Nat :=
  let win := t / satWindow - 1
  let end_ := t / satWindow * satWindow
  (if x.zeroWin = win then x.zeroTime else 0)
    + (match x.zeroSince with
      | none => 0
      | some s => end_ - max s.toNat (win * satWindow))

/-- The end of a window for one queue. -/
def Device.saturate (d : Device) (q : Nat) : Device :=
  let x := d.queue q
  let t := d.tb (queHalf q)
  let span := x.windowSpan t.toNat
  let d := d.modQueue q fun y =>
    { y with zeroTime := 0, zeroWin := t.toNat / satWindow, zeroSince := y.zeroSince.map fun s =>
        if s.toNat < t.toNat / satWindow * satWindow then BitVec.ofNat 64 (t.toNat / satWindow * satWindow) else s }
  if x.st ≠ .active then d
  else if !x.saturated ∧ satWindow / 2 < span then
    ((d.modQueue q fun y => { y with saturated := true }).queueEvent q 0x000D 0 0 0).mailDue q
  else if x.saturated ∧ span ≤ satWindow / 4 then
    (d.modQueue q fun y => { y with saturated := false }).mailDue q
  else d

/-- Time passes to the end of the window on both halves, and every queue is judged. -/
def Device.saturatedTick (d : Device) : Device :=
  let a := nextMultiple satWindow d.time.tbA
  let d := (d.advanceTo .a a).advanceTo .b a
  d.each d.queueNumbers Device.saturate

def execSaturated (s : State) : Host.Outcome State Fault Refusal := runOn s Device.saturatedTick

/-- A link error of a port's endpoint: counted for Advanced Error Reporting, and reported (R242). -/
def execPcieLinkErr (err : PortError) (s : State) : Host.Outcome State Fault Refusal :=
  runOn s fun d =>
    let x := d.port err.port
    let x := if err.correctable then { x with correctable := x.correctable + 1 } else { x with uncorrectable := x.uncorrectable + 1 }
    (d.setPort err.port x).report err.port { unit := 0x6D, kind := 0x55 }

end Sys2Proof.Machine
end

