-- ==== Sys2Proof/Machine/DeputyBase.lean ====
section
/-! DEFINITION. What Deputy does when Overman is lost, the automatic restart, and the return to boot mode (R305,
R313, R314). -/

namespace Sys2Proof.Machine

/-- One count of R313's and R308's limits: 1 ms. -/
def ms : Nat := 100000

/-- Deputy serves the control queue of a half in boot mode, and says so (R305). -/
def Device.enterBoot (d : Device) (h : Half) : Device := (d.refreshCredits h).eventServing h 0

/-- The image in a half's Overman reserve. -/
def Device.reserveOf (d : Device) (h : Half) : List Host.Cell := tget [] d.deputy.reserve h.idx

def Device.setReserve (d : Device) (h : Half) (m : List Host.Cell) : Device :=
  { d with deputy := { d.deputy with reserve := tset [] h.idx m d.deputy.reserve } }

/-- The digest FW_END checks: SHA-384 of an image with its signature taken as zero (R306). -/
def imageDigest (m : List Host.Cell) (size : Nat) : List Byte :=
  sha384 (getBytes m 0 128 ++ List.replicate (min 96 (size - 128)) 0#8 ++ getBytes m 224 (size - 224))

/-- Overman starts on a half: its watchdog runs from now, and it must serve by a deadline (R308, R313). -/
def Device.startOvm (d : Device) (h : Half) (st : OvmState) (deadline : W64) : Device :=
  d.setOvman h { d.ovman h with st, deadline, kick := d.tb h, stopped := false }

/-- The automatic restart of R314, or boot mode. -/
def Device.restartOvm (d : Device) (h : Half) : Device :=
  let o := d.ovman h
  let same := decide (0 < o.size) && imageDigest (d.reserveOf h) o.size == o.digest
  if bit (d.reg h ovmP 0x50) 0 ∧ !o.restartUsed ∧ same then
    (d.setOvman h { o with restartUsed := true }).startOvm h .restarting (d.tb h + BitVec.ofNat 64 (40 * ms))
  else d.enterBoot h

/-- The ingress ring of a request queue is cleared (R313, step 5). -/
def Queue.clearRing (x : Queue) : Queue :=
  { x with ring := [], poison := [], missing := [], inbox := [], owed := (0, 0) }

/-- Overman is lost on some halves (R313, R314): OVERMAN_LOST goes to every ACTIVE ring, of both ports unless the halves are
apart (R268, R369). -/
def Device.ovmLoss (d : Device) (hs : List Half) : Device :=
  let mine (q : Nat) : Bool := hs.contains (queHalf q)
  let rings := d.queueNumbers.filter fun q => mine q || (!d.apart && !hs.isEmpty)
  let d := d.each hs fun d h =>
    let d := (d.modGov h fun g => { g with frozen := true, safe := true }).capBfrac h
    let d := d.setOvman h { d.ovman h with st := .lost, stopped := true }
    d.each (halfBays h) fun d k => d.setReg .a (bayP k) 0x40 (d.reg .a (bayP k) 0x40 ||| 1#32)
  let d := d.each rings fun d q => d.queueEvent q 0x000B 0 0 0
  let d := (d.endRequests (fun r => mine r.queue) 0x0022).endUnread mine 0x0022
  let d := d.endSessions fun s => mine s.queue
  let d := d.each (d.queueNumbers.filter fun q => mine q && !isControl q) fun d q => d.modQueue q Queue.clearRing
  let bad := d.usedSlots.filter fun l => (d.lode l).badRecord && (d.lode l).halves.any hs.contains
  let d := d.each bad fun d l => d.evictLode (d.lode l).firstHalf l 0x65 0x0022
  let d := d.each hs fun d h => d.refreshCredits h
  d.each hs Device.restartOvm

/-- Overman has started on a half and not been lost. -/
def Device.ovmAlive (d : Device) (h : Half) : Bool :=
  match (d.ovman h).st with
  | .starting | .serving | .restarting => true
  | _ => false

end Sys2Proof.Machine
end

