-- ==== Sys2Proof/Machine/Protection.lean ====
section
/-! DEFINITION. Transients, limits and shorts: the cycle limit, latches, brake, over- and under-voltage, sense loss, lost
clusters and shut-down rails (file 08). -/

namespace Sys2Proof.Machine

/-! ## Retired units (R176, R177, R374, R378) -/

/-- The cell that a report of a whole cluster names (R180; DESIGN CHOICE, LOG 66). -/
def reportCell (n kind : Nat) : Nat := Config.reportCell n kind % 8

/-- A report of a cluster, with its PERR bit (R180). -/
def Device.cluReport (d : Device) (n kind bitNo detail : Nat) : Device :=
  (d.perr .a (cluP n) (2 ^ bitNo)).report (cluHalf n) (unitReport (n % 36) kind (cluP n) 0 detail)

/-- A bay is retired: it fires nothing more, its level is 0, and the host is told (R176, R374, R376). -/
def Device.retireBay (kind : Nat) (d : Device) (k : Nat) : Device :=
  if (d.bay k).retired then d
  else
    let h := bayHalf k
    let d := d.modBay k fun b => { b with retired := true, cause := kind, buffer := [] }
    let d := d.modSpender h (k % 28) fun s => { s with level := 0, need := none, lull := none }
    let bays := addOnce k d.power.retiredBays
    let d := { d with power := { d.power with retiredBays := bays }, service := { d.service with retireDue := true } }
    d.eventFrom h 0x0007 k 0 0

/-- The cell of a cluster latches off (R163, R165, R166, R170): it is recorded and the host is told. RAIL_SHORT and OV are the
reason of every cell of the cluster, of one already latched too. A latched anchor hands on to the cell that holds slot 0 next. -/
def Device.latchCell (d : Device) (n c reason : Nat) : Device :=
  let x := d.cluster n
  if (x.cell c).st = .latched then
    if reason = 3 ∨ reason = 5 then d.setCluster n (x.modCell c fun y => { y with reason := BitVec.ofNat 4 reason }) else d
  else
    let anchor := if x.anchor = some c then
        (([1, 2, 3, 4, 5, 6, 7].map fun i => (c + i) % 8).find? (d.cellAvailable n)).orElse fun _ => some c
      else x.anchor
    let d := d.setCluster n { x.modCell c (fun y => { y with st := .latched, reason := BitVec.ofNat 4 reason, current := 0 })
      with anchor, sinceChange := 0, changed := true, live := true }
    let d := d.fillCells n
    let cells := addOnce (8 * n + c) d.power.retiredCells
    let d := { d with power := { d.power with retiredCells := cells }, service := { d.service with retireDue := true } }
    d.eventFrom (cluHalf n) 0x0006 (n * 256 + c) 0 0

/-- Kind of a shut-down rail (R167). -/
def shutdownKind (r : Nat) : Nat := if r % 6 = 2 ∨ r % 6 = 3 then 0x2C else 0x2B

/-- A rail is shut down: its domain is off at once, in both halves for PD7 and PD8; `c` is the deciding cell (R167, R180). -/
def Device.shutRail (d : Device) (r n c : Nat) : Device :=
  if (d.rail r).shutDown then d
  else
    let kind := shutdownKind r
    let d := d.modRail r fun x => { x with shutDown := true }
    let d := d.cluReport n kind 7 c
    let d := if r % 6 = 3 then d.linkDown (ralHalf r) 5 else d
    d.each (domainParts (partDomain (railPart r))) fun d k =>
      let st := (d.part k).st
      if st = .off ∨ st = .inhibited ∨ st = .tripped then d
      else (d.dropPart k .off (if st = .up then 4#8 else 0#8) kind).domainChanged k

/-- A cluster without an available cell is lost (R176); its rail's command goes on without it (R116). -/
def Device.lostCluster (d : Device) (n : Nat) (st : ClusterState) (kind c : Nat) : Device :=
  let d := d.stopCluster n
  let d := d.modCluster n fun x => { x with st }
  let d := if st = .isolated then
      { d with power := { d.power with retiredClusters := addOnce n d.power.retiredClusters } } else d
  let d := if n % 36 < 28 then d.each (pairBays n) (Device.retireBay kind) else d
  let r := railOf n
  if 2 ≤ r % 6 ∨ d.railDead r then d.shutRail r n c else d.railComplete r

/-- After a latch: a cluster with no available cell reads RETIRED. -/
def Device.checkLost (d : Device) (n kind c : Nat) : Device :=
  let x := d.cluster n
  if (d.available n).isEmpty ∧ (x.st = .active ∨ x.st = .ready) then d.lostCluster n .retired kind c else d

/-- RAIL_SHORT: every cell latches, the cluster reads ISOLATED; a second cluster of the rail within 1 µs shuts it down
(R166, R167). -/
def Device.railShort (d : Device) (n c : Nat) : Device :=
  let now := d.tb (cluHalf n)
  let d := d.each (List.range 8) fun d c => d.latchCell n c 3
  let d := d.modCluster n fun x => { x with prot := { x.prot with railShort := true, shortAt := some now } }
  let d := (d.cluReport n 0x2A 7 c).lostCluster n .isolated 0x2A c
  let r := railOf n
  let other := (railClusters r).any fun k => k != n && (d.cluster k).prot.shortAt.any fun t => decide ((now - t).toNat ≤ 100)
  if other then d.shutRail r n c else d

/-! ## Cycle limit and hard short (R161-R166) -/

/-- The over-current comparator ends a period of an active cell (R161, R162). -/
def Device.cycleLimit (d : Device) (n c : Nat) (current : MilliAmp) (period : Nat) : Device :=
  let x := d.cluster n
  let y := x.cell c
  if y.st = .active ∧ exceeds current (d.foldLimit n) (d.halfRipple n) ∧ y.lastLimit ≠ some period then
    let run := if y.lastLimit = some (period - 1) ∧ 0 < period then y.limitRun + 1 else 1
    d.setCluster n (x.modCell c fun y =>
      { y with inLimit := true, lastLimit := some period, limitRun := run, limits := satInc y.limits
               reached64 := if run = 64 then some period else y.reached64 })
  else d

def execCycleLimit (n : Fin 72) (c : Fin 8) (current : MilliAmp) (period : Nat) (s : State) :
    Host.Outcome State Fault Refusal :=
  runOn s fun d => d.cycleLimit n c current period

/-- Two periods lie within 4 of each other. -/
def within4 (p q : Nat) : Bool := decide (p < q + 4 ∧ q < p + 4)

/-- A cell with 64 consecutive limited periods latches; two of one cluster within 4 periods are a RAIL_SHORT (R163). -/
def Device.cellLimit (d : Device) (n c : Nat) : Device :=
  let x := d.cluster n
  let y := x.cell c
  match y.reached64 with
  | none => d
  | some p =>
    if y.st ≠ .active ∨ y.limitRun < 64 then d
    else if (List.range 8).any fun k => k != c && (x.cell k).reached64.any (within4 p) then d.railShort n c
    else ((d.latchCell n c 2).cluReport n 0x29 6 c).checkLost n 0x29 c

/-- The hard-short comparator trips (R164-R166). -/
def Device.hardShort (d : Device) (n c : Nat) (current : MilliAmp) (period : Nat) : Device :=
  let x := d.cluster n
  let y := x.cell c
  if y.st ≠ .active ∨ !exceeds current (2 * (d.ilim n : Int), 1) (d.halfRipple n) ∨ y.lastHard = some period then d
  else
    let d := d.setCluster n (x.modCell c fun y => { y with hards := satInc y.hards, lastHard := some period })
    let d := d.report (cluHalf n) (unitReport (n % 36) 0x27 (cluP n) 0 c)
    if (List.range 8).any fun k => k != c && (x.cell k).lastHard.any (within4 period) then d.railShort n c
    else if 0 < period ∧ y.lastHard = some (period - 1) then ((d.latchCell n c 1).cluReport n 0x28 6 c).checkLost n 0x28 c
    else d

/-! ## Brake (R158-R160) -/

/-- The cluster enters brake. -/
def Device.brakeEntry (d : Device) (n : Nat) : Device :=
  let x := d.cluster n
  let p := x.prot
  if x.st = .active ∧ d.brakeMode n ∧ !(d.engineCfg n).manual ∧ !x.seq ∧ 2 ≤ p.brakeRun ∧ p.brakeHold = 0
      ∧ !p.brake ∧ !p.crowbar then
    d.setCluster n { x with prot := { p with brake := true, brakeAge := 0, brakeCount := satInc p.brakeCount } }
  else d

def execBrakeEntry (n : Fin 72) (s : State) : Host.Outcome State Fault Refusal := runOn s fun d => d.brakeEntry n

/-- Brake ends. -/
def Device.brakeExit (d : Device) (n : Nat) : Device :=
  let x := d.cluster n
  let p := x.prot
  if p.brake ∧ (p.brakeEase ∨ 16 ≤ p.brakeAge) then
    d.setCluster n { x with prot := { p with brake := false, brakeHold := 16 } }
  else d

def execBrakeExit (n : Fin 72) (s : State) : Host.Outcome State Fault Refusal := runOn s fun d => d.brakeExit n

/-! ## Over-voltage, under-voltage, sense loss (R168-R174) -/

/-- Over-voltage for 2 samples: the cells crowbar. -/
def Device.overVoltage (d : Device) (n : Nat) : Device :=
  let x := d.cluster n
  let p := x.prot
  let now := d.tb (cluHalf n)
  if x.st = .active ∧ 2 ≤ p.ovRun ∧ !p.crowbar then
    let again := p.lastOv.any fun t => decide ((now - t).toNat ≤ 100000)
    let d := d.setCluster n { x with prot := { p with
      crowbar := true, brake := false, ovCount := satInc p.ovCount, ovRepeat := again, lastOv := some now } }
    d.cluReport n 0x2D 3 (reportCell n 0x2D)
  else d

def execOv (n : Fin 72) (s : State) : Host.Outcome State Fault Refusal := runOn s fun d => d.overVoltage n

/-- The preset of R151 toward a duty, unless the engine is in MANUAL. -/
def Device.presetTo (d : Device) (n duty : Nat) : Device :=
  if (d.engineCfg n).manual then d else d.modEngine n fun g => { g with preset := some duty }

/-- D = V / VINM in 1/2,048, clamped to the duty range. -/
def Cluster.dutyOf (x : Cluster) (v : Volt) : Nat :=
  if x.vin ≤ 0 then 0 else (clampInt 0 1228 (roundDiv (v * 2048) x.vin.toNat)).toNat

/-- Both voltages that R168 judges, in fallback the local one alone, have fallen to V_target: regulation resumes, or after a repeat
every cell latches (R169, R170). -/
def Device.ovResume (d : Device) (n : Nat) : Device :=
  let x := d.cluster n
  let p := x.prot
  if !p.crowbar ∨ d.judgeRef n < x.loc ∨ (!p.fallback ∧ d.judgeRef n < x.remote) then d
  else if p.ovRepeat then
    let d := d.each (List.range 8) fun d c => d.latchCell n c 5
    (d.cluReport n 0x2E 3 (reportCell n 0x2E)).lostCluster n .retired 0x2E (reportCell n 0x2E)
  else
    let d := d.setCluster n { x with sinceChange := 0, prot := { p with crowbar := false, ovRun := 0 } }
    d.presetTo n (x.dutyOf x.loc)

/-- Under-voltage for 16 samples (R172). -/
def Device.underVoltage (d : Device) (n : Nat) : Device :=
  let x := d.cluster n
  let p := x.prot
  if x.st = .active ∧ 16 ≤ p.uvRun ∧ !p.uv then
    (d.setCluster n { x with prot := { p with uv := true } }).cluReport n 0x2F 4 (reportCell n 0x2F)
  else d

def execUv (n : Fin 72) (s : State) : Host.Outcome State Fault Refusal := runOn s fun d => d.underVoltage n

/-- Sense-line loss: fallback to local sense with a frozen reference (R173, R174). -/
def Device.senseLost (d : Device) (n : Nat) : Device :=
  let x := d.cluster n
  let p := x.prot
  if x.st = .active ∧ (4 ≤ p.senseRun1 ∨ 8 ≤ p.senseRun2) ∧ !p.fallback then
    let slew := if x.slew.busy then { x.slew with busy := false, superseded := true, supCount := satInc x.slew.supCount }
      else x.slew
    let d := d.setCluster n { x with target := x.vref, slew, prot := { p with fallback := true } }
    let d := (d.presetTo n x.duty).cluReport n 0x30 5 (reportCell n 0x30)
    let h := cluHalf n
    let d := if n % 36 < 28 then d.modGov h fun g => { g with senseHeld := min g.senseHeld g.active } else d
    d.railComplete (railOf n)
  else d

def execSenseLost (n : Fin 72) (s : State) : Host.Outcome State Fault Refusal := runOn s fun d => d.senseLost n

end Sys2Proof.Machine
end

