-- ==== Sys2Proof/Machine/Resets.lean ====
section
/-! DEFINITION. First light, resets, DORMANT and wake, cold inhibit, the supply thresholds, and the domain commands
(R73, R85-R103, R177, R332, R378). -/

namespace Sys2Proof.Machine

/-! ## Boot (R91-R94) -/

/-- Place of a part in the order of R91: PD8, SEAM, LINK, MEM, CORE. -/
def bootRank (k : Nat) : Nat :=
  if k < 2 then 4 else if k < 4 then 1 else if k < 6 then 3 else if k % 2 = 0 then 2 else 0

/-- Parts of a half in the order of R91. -/
def bootOrder (h : Half) : List Nat := [svcPart h, seamPart h, linkPart h, memPart h, corePart h]

/-- BOOTSET and DOMMASK ask for a part; bits 2, 3 and 7 always read 1 (R86, R91, R300). -/
def Device.bootWants (d : Device) (k : Nat) : Bool :=
  let i := partDomain k
  i == 2 || i == 3 || i == 7 || (bit (d.reg .a pdmP 0x80) i && d.maskAllows .a i)

/-- A part that boot finds held by cold inhibit (R94). -/
def Device.bootHeld (d : Device) (k : Nat) : Bool :=
  d.bootWants k && d.inhibited (partHalf k) && (decide (k < 2) || decide (4 ≤ k ∧ k < 6))

/-- Both SEAM domains are ON. -/
def Device.seamsOn (d : Device) : Bool := d.isOn (seamPart .a) && d.isOn (seamPart .b)

/-- Deputy may begin a part's power-up at boot. -/
def Device.bootMay (d : Device) (k : Nat) : Bool :=
  let h := partHalf k
  let idle := match (d.part k).st with
    | .off | .inhibited => true
    | _ => false
  d.bootWants k && idle && !d.pins.tripLatch && !(tget false d.nvm.calBad h.idx) && !(d.canary h).safe
  && (match bootRank k with
    | 2 => d.seamsOn
    | 3 => d.isOn (seamPart h)
    | _ => true)

/-- A part is held INHIBITED; MEM is reported (R94). -/
def Device.holdCold (d : Device) (k : Nat) : Device :=
  let d := d.modPart k fun p => if p.st = .off then { p with st := .inhibited } else p
  if 4 ≤ k ∧ k < 6 then d.report (partHalf k) (unitReport 0x67 0x1D pdmP (0x60 + 4 * partDomain k)) else d

/-- The crosscut's ends train once PD7 is ON in both halves: at boot, and after a half reset while the bell line is
alive (R91, R99). -/
def Device.trainAtBoot (d : Device) : Device :=
  let a := d.linkEnd .a
  let b := d.linkEnd .b
  let down (e : LinkEnd) : Bool := e.st == .off || e.st == .failed
  if d.isOn 6 ∧ d.isOn 8 ∧ down a ∧ down b ∧ (!d.apart ∨ d.bellUp) then
    (d.startTraining .a).startTraining .b
  else d

/-- A part of the plan that will still come up: one under way, or one whose half has VIN and, of LINK, both SEAM domains. -/
def Device.coming (d : Device) (k : Nat) : Bool :=
  (d.power.group.contains k && (d.part k).st.sequencing)
    || (d.power.plan.contains k && d.vinOk (partHalf k) && (bootRank k != 2 || d.seamsOn))

/-- Both SEAM domains are ON, or still to come. -/
def Device.seamsCome (d : Device) : Bool :=
  [seamPart .a, seamPart .b].all fun j => d.isOn j || d.power.plan.contains j || d.power.group.contains j

/-- The next part a half's plan names; LINK is passed over, and kept, while a SEAM domain is still to come. -/
def Device.bootPart (d : Device) (h : Half) : Option Nat :=
  (bootOrder h).find? fun k => d.power.plan.contains k && (bootRank k != 2 || d.seamsOn || !d.seamsCome)

/-- Deputy has dealt with a part of the plan. -/
def Device.unplan (d : Device) (k : Nat) : Device :=
  { d with power := { d.power with plan := d.power.plan.filter (· != k) } }

/-- One half's plan goes on to its next part: none of the half's is under way, VIN is above the lockout release, and the other
half has none before it in the order that will still come up (R91; DEDUCED, LOG 30). -/
def Device.bootHalf (d : Device) (h : Half) : Device :=
  match d.bootPart h with
  | none => d
  | some k =>
    let busy := (bootOrder h).any fun j => (d.part j).st.sequencing && (d.power.group.contains j || decide (4 ≤ k ∧ k < 6 ∧ j < 2))
    let behind := (bootOrder h.other).any fun j => decide (bootRank j < bootRank k) && d.coming j
    if busy || behind then d
    else if d.bootHeld k then (d.unplan k).holdCold k
    else if !d.vinOk h then d
    else if !d.bootMay k then d.unplan k
    else
      let d := d.unplan k
      Device.startUp { d with power := { d.power with group := d.power.group ++ [k], stage := bootRank k + 1 } } k

/-- The plans of both halves go on as far as they can. -/
def Device.bootNext : Nat → Device → Device
  | 0, d => d
  | n + 1, d =>
    let done := d.power.group.filter fun k => !(d.part k).st.sequencing
    let d := { d with power := { d.power with group := d.power.group.filter fun k => (d.part k).st.sequencing } }
    let d := if done.any fun k => bootRank k == 2 then d.trainAtBoot else d
    ((d.bootHalf .a).bootHalf .b).bootNext n

/-- The plan advances (R91). -/
def Device.advanceBoot (d : Device) : Device := if d.awake then d.bootNext 11 else d

/-- Deputy plans the power-up of some parts, beside what it has still to do. -/
def Device.planBoot (d : Device) (want : Nat → Bool) : Device :=
  { d with power := { d.power with plan := (List.range 10).filter fun k => want k || d.power.plan.contains k } }

/-- A part reaches the end of a step; the boot plan follows. -/
def Device.stepPart (d : Device) (k : Nat) (m : StartMeas) : Device :=
  ((d.checkStored (partHalf k) pdmP).sequence k m).advanceBoot

def execSequenceStep (part : Fin 10) (m : StartMeas) (s : State) : Host.Outcome State Fault Refusal :=
  runOn s fun d => d.stepPart part m

/-- A DRAM stack of a half fails its training, which one being free (R235; DESIGN CHOICE, LOG 7). -/
def Device.failStack (d : Device) (h : Half) : Device :=
  let (w, d) := d.fresh
  let k := 2 + h.idx * 4 + w.toNat % 4
  d.setMem k { d.mem k with failed := true }

/-- A step in progress can fail with a reason: step 1 with 0x01 and 0x02, steps 2, 3, 5 and 7 with 0x04, 0x03, 0x05 and 0x08,
and of MEM the converters that follow step 3 with 0x06 and the training that follows step 6 with 0x07 (R87, R88). -/
def Device.canMiss (d : Device) (k reason : Nat) : Bool :=
  let mem := decide (4 ≤ k ∧ k < 6)
  match (d.part k).step, reason with
  | 1, 1 | 1, 2 | 2, 4 | 5, 5 => true
  | 3, 3 | 7, 8 => !d.settled k
  | 3, 6 => mem && d.settled k
  | 6, 7 => mem
  | _, _ => false

/-- A step that misses its check or its limit (R87). -/
def Device.missStep (d : Device) (k : Nat) (reason : Byte) : Device :=
  let h := partHalf k
  if (d.part k).st = .up ∧ d.canMiss k reason.toNat then
    let d := if reason = 6#8 then
        d.each (((dramConvs h).drop (tget 0 d.power.converters h.idx)).take 1) Device.noResponse else d
    let d := if reason = 7#8 then d.failStack h else d
    (d.seqFail k reason).advanceBoot
  else d

def execPdSeqFail (part : Fin 10) (reason : Byte) (s : State) : Host.Outcome State Fault Refusal :=
  runOn s fun d => d.missStep part reason

/-! ## Supplies (R73) -/

/-- Four consecutive inner samples lie beyond a threshold. -/
def fourBeyond (samples : List Volt) (p : Volt → Bool) : Bool := decide (4 ≤ samples.length) && (samples.take 4).all p

def Device.vinRelease (d : Device) (h : Half) (vs : List Volt) : Device :=
  if fourBeyond vs (fun v => decide (2150 * mV < v)) ∧ !d.pins.porstLow then
    Device.advanceBoot { d with pins := { d.pins with vinReleased := tset false h.idx true d.pins.vinReleased } }
  else d

def execVinLockoutRelease (h : Half) (samples : List Volt) (s : State) : Host.Outcome State Fault Refusal :=
  runOn s fun d => d.vinRelease h samples

/-- Parts of a half. -/
def halfParts (h : Half) : List Nat := (List.range 10).filter fun k => partHalf k == h

/-- A report of VIN (unit 0x067, the sequencer; DEDUCED, LOG 16). -/
def vinReport (kind : Nat) : Report := unitReport 0x67 kind pdmP

/-- VIN falls through the lockout (R73, file 05): every cell stops, the half's domains drop, a power-up ends with
FAIL 0x01. -/
def Device.vinUv (d : Device) (h : Half) (vs : List Volt) : Device :=
  if fourBeyond vs (fun v => decide (v < 2050 * mV)) ∧ d.vinOk h ∧ !d.pins.porstLow then
    let up := (halfParts h).filter fun k => (d.part k).st == .up
    let d := { d with pins := { d.pins with vinReleased := tset false h.idx false d.pins.vinReleased } }
    let d := d.report h (vinReport 0x17)
    let d := d.each up fun d k => d.seqReport k 1#8
    let d := d.each (halfParts h) fun d k =>
      match (d.part k).st with
      | .off | .inhibited | .tripped => d
      | st => d.dropPart k .off (if st = .up then 1#8 else 0#8) 0x17
    d.advanceBoot
  else d

def execVinOvWarn (h : Half) (samples : List Volt) (s : State) : Host.Outcome State Fault Refusal :=
  runOn s fun d =>
    if fourBeyond samples (fun v => decide (2600 * mV < v)) ∧ !d.pins.porstLow then d.report h (vinReport 0x18) else d

/-- Over-voltage shutdown: every cell of the half stops (R73). -/
def Device.vinOv (d : Device) (h : Half) (vs : List Volt) : Device :=
  if fourBeyond vs (fun v => decide (2700 * mV < v)) ∧ !d.pins.porstLow then
    (d.each ((halfParts h).flatMap partClusters) Device.stopCluster).report h (vinReport 0x19)
  else d

def execVinOv (h : Half) (samples : List Volt) (s : State) : Host.Outcome State Fault Refusal :=
  runOn s fun d => d.vinOv h samples

/-! ## Cold reset (R98, R101) -/

/-- Everything but what the always-on NVM and fuses hold; the pins keep the board's levels. -/
def Device.coldReset (d : Device) : Device :=
  { time := { freeCount := d.time.freeCount }
    pins := { persthLow := d.pins.persthLow }
    deputy := { fuseCount := d.deputy.fuseCount }
    nvm := { banks := d.nvm.banks, calBad := d.nvm.calBad, count := d.nvm.count } }

def execPorstN (s : State) : Host.Outcome State Fault Refusal := runOn s Device.coldReset

/-- VAUX leaves its range: the device behaves as on an asserted PORST_N (file 04). -/
def execVauxOutOfRange (s : State) : Host.Outcome State Fault Refusal := runOn s Device.coldReset

/-- Set bits of RSTCAUSE on both copies (R100). -/
def Device.addCause (d : Device) (i : Nat) : Device :=
  d.setBoth pdmP 0x90 (d.reg .a pdmP 0x90 ||| w32 (2 ^ i))

/-- Deputy's boot checks on some halves (R309, R315): the calibration region and the fuses. -/
def Device.bootChecks (d : Device) (hs : List Half) : Device :=
  let d := d.each hs fun d h =>
    if tget false d.nvm.calBad h.idx then d.report h (unitReport 0x6B 0x69 nvmP) else d
  if Config.keyHash 0 = Config.keyHash 1 then d else d.report (hs.headD .a) (unitReport 0x6B 0x67 depP 0x44)

/-- The sync groups of some halves run at the settings just loaded, with the modulation they ask for (R123, R126). -/
def Device.startSyncs (d : Device) (hs : List Half) : Device :=
  d.each ((List.range 4).filter fun g => hs.contains (syncHalf g)) fun d g =>
    d.setSyncState g { freq := d.fswUnits g * 1250000, spread := decide (d.cp .a clkP (0x60 + 4 * g) / 256 % 4 ≠ 0) }

/-- Deputy starts on some halves: it checks, chooses the store's banks and applies them (R91, R317, R319). -/
def Device.startDeputy (d : Device) (hs : List Half) : Device :=
  let d := (d.bootChecks hs).bootStore hs d.bellUp
  let d := ((d.each hs.reverse Device.applyBank).startSyncs hs).each hs Device.capBfrac
  { d with deputy := { d.deputy with running := hs.foldl (fun t h => tset false h.idx true t) d.deputy.running } }

/-- PORST_N rises: the straps are sampled and Deputy boots (R46, R53, R68, R91). On a silent bell line Half B cannot take
Half A's timebase and starts from 0 as well (the spec does not say; DESIGN CHOICE, LOG 61). -/
def Device.release (d : Device) (st : Straps) (bell : Bool) : Device :=
  if !d.pins.porstLow then d
  else
    let d := { d with
      pins := { d.pins with porstLow := false, addrSel := st.addrSel, twiVsel := st.twiVsel }
      time := { d.time with tbA := 0#64, tbB := 0#64 } }
    let d := d.setBoth tmbP 0x48 (w32 (flag bell 31 + flag (!bell) 30))
    let d := d.each [Half.a, .b] fun d h =>
      let d := d.setLinkEnd h { d.linkEnd h with bell }
      let d := d.setLock h 0 true
      if bell then d else (d.perr .a (lnkP h) 8).report h (unitReport 0x6A 0x74 (lnkP h))
    let d := (d.startDeputy [.a, .b]).pmBoot
    ((d.addCause 0).planBoot fun _ => true).advanceBoot

def execPorstNDeassertion (straps : Straps) (bellUp : Bool) (s : State) : Host.Outcome State Fault Refusal :=
  runOn s fun d => d.release straps bellUp

/-! ## Warm reset (R99-R101, R103, R177, R333, R378) -/

/-- The reset that ends a capture completes its log entry (R328, R333). -/
def Canary.closeLog (c : Canary) (now : W64) (released : Bool) : Canary :=
  match c.held with
  | none => c
  | some r =>
    let e := c.logAt r.logSlot
    let w2 := (e.word 2).toNat % 2 ^ 20 + r.classes.toNat * 2 ^ 20 + r.reacted.toNat * 2 ^ 24 + flag r.second 26
      + flag released 27 + flag true 28 + flag (bit (e.word 2) 29) 29
    let w3 := (e.word 3).toNat / 2 ^ 16 * 2 ^ 16 + r.merge % 2 ^ 16
    let ws := [e.word 0, e.word 1, w32 w2, w32 w3, e.word 4, e.word 5, now.setWidth 32, e.word 7]
    { c with log := tset {} r.logSlot { words := ws } c.log }

/-- What a warm or half reset leaves of a half's Canary: the sticky log. -/
def Device.resetCanary (d : Device) (h : Half) : Device :=
  let c := (d.canary h).closeLog (d.tb h) false
  d.setCanary h { log := c.log, logHead := c.logHead, logSeq := c.logSeq }

/-- Deputy makes good the retirement record before any power-up (R177, R378). -/
def Device.reapplyRecord (d : Device) (hs : List Half) : Device :=
  let cells := d.power.retiredCells.filter fun c => hs.contains (cluHalf (c / 8))
  let d := d.each cells fun d c =>
    let n := c / 8
    let off := d.clu n 0x60
    ((d.setReg .a (cluP n) 0x60 (cpWord (off ||| 2 ^ (c % 8)))).bumpSeq .a (cluP n)).cellsTaken n
  let d := d.each (d.power.retiredClusters.filter fun n => hs.contains (cluHalf n)) fun d n =>
    (d.setReg .a (cluP n) 0x10 (d.reg .a (cluP n) 0x10 &&& ~~~1#32)).bumpSeq .a (cluP n)
  d.each (d.power.retiredBays.filter fun k => hs.contains (bayHalf k)) fun d k => d.modBay k fun b => { b with retired := true }

/-- A part after a reset has taken it down: a power-up was abandoned with FAIL 0x09 (R103). -/
def Part.afterReset (p : Part) : Part :=
  { st := if p.st = .tripped then .tripped else .off, fail := if p.st = .up then 9#8 else p.fail }

/-- PLLs of the domains stop; the AON and regulator PLLs are not switched with them (DESIGN CHOICE, LOG 62). -/
def Device.stopPlls (d : Device) (h : Half) : Device := d.each [1, 2, 3, 4, 7, 8] fun d i => d.setLock h i false

/-- An end of the crosscut after a reset: repairs, counts and the bell line stay (R364, R379). -/
def LinkEnd.afterReset (e : LinkEnd) : LinkEnd :=
  { bundles := e.bundles, repairs := e.repairs, splits := e.splits, splitAt := e.splitAt, lowSeen := e.lowSeen, bell := e.bell
    frames := e.frames, lastFrame := e.lastFrame }

/-- What a reset leaves of a half's THM unit: the cold inhibit, which holds until scans clear it, and the count of scans
(R94, R101, R103; DEDUCED, LOG 18). -/
def Thermal.afterReset (t : Thermal) : Thermal := { scans := t.scans, inhibit := t.inhibit }

/-- Deputy disables the DRAM converters of the halves whose MEM domain the reset took down (R76, R89, R99). -/
def Device.dramOff (before d : Device) (hs : List Half) : Device :=
  d.each (hs.filter fun h => !(before.part (memPart h)).st.pageCode == some 0) Device.disableConvs

/-- A warm reset of the whole device (R99, R101). The power-down and the reset are one event (DESIGN CHOICE, LOG 17). -/
def Device.warmReset (d : Device) (cause : Nat) : Device :=
  let before := d
  let d := (d.resetCanary .a).resetCanary .b
  let d := (d.stopPlls .a).stopPlls .b
  let cleared : Device :=
    { time := { d.time with snapshot := [] }
      pins := d.pins
      regs := d.regs.filter fun e => keptWord e.1
      txn := { readData := d.txn.readData }
      power := { parts := (List.range 10).foldl (fun t k => tset {} k (d.part k).afterReset t) []
                 retiredCells := d.power.retiredCells, retiredClusters := d.power.retiredClusters
                 retiredBays := d.power.retiredBays, isolatedCores := d.power.isolatedCores }
      therms := tmap {} (fun _ t => t.afterReset) d.therms
      host := { ports := tmap {} (fun _ x => { posted := x.posted }) d.host.ports }
      service := { usedIds := d.service.usedIds }
      deputy := { fuseCount := d.deputy.fuseCount }
      nvm := { d.nvm with st := .idle }
      cans := d.cans
      link := { ends := tmap {} (fun _ e => e.afterReset) d.link.ends } }
  let d := Device.dramOff before ((cleared.startDeputy [.a, .b]).reapplyRecord [.a, .b]) [.a, .b]
  ((d.pmBoot.addCause cause).planBoot fun _ => true).advanceBoot

/-- A warm reset from a source that acts while PORST_N is high. -/
def Device.warmFrom (d : Device) (cause : Nat) : Device := if d.pins.porstLow then d else d.warmReset cause

def execWarmN (s : State) : Host.Outcome State Fault Refusal := runOn s fun d => d.warmFrom 1

def execSoftwareDeviceReset (s : State) : Host.Outcome State Fault Refusal :=
  runOn s fun d => if d.awake then d.warmReset 2 else d

/-- The watchdog's log entry is written before its reset (R333). -/
def execDeputyWatchdog (h : Half) (s : State) : Host.Outcome State Fault Refusal :=
  runOn s fun d => if d.pins.porstLow then d
    else (d.logReport h { unit := 0x64, kind := 0x6E } 3).warmReset 3

/-! ## Half reset (R99, R101) -/

/-- Entries of a table that belong to the other half. -/
def dropHalf {α : Type} (h : Half) (half : Nat → Half) (t : Tab α) : Tab α := t.filter fun e => half e.1 != h

def idxHalf (i : Nat) : Half := if i = 0 then .a else .b

/-- A word of a page of one half, which a half reset returns to its reset value (DEDUCED, LOG 18). -/
def halfWord (h : Half) (key : Nat) : Bool :=
  (pageAt (key % 2 ^ 24)).any fun (p : PageId) => !p.1.isGlobal && pageHalf p.1 p.2 == h && !keptWord key

/-- Lodes that a half's reset empties: those on the half, and every spanning one. -/
def Device.lodesOn (d : Device) (h : Half) : List Nat :=
  d.usedSlots.filter fun l => (d.lode l).halves.contains h || (d.lode l).spans

/-- The other half's side of a half reset: it runs in SPLIT, its Overman is lost, and lodes of both halves are gone. -/
def Device.surviveHalf (d : Device) (h : Half) : Device :=
  let o := h.other
  let d := d.enterSplit o 6 .off
  let d := if d.ovmAlive o then d.ovmLoss [o]
    else d.each (d.queueNumbers.filter (queHalf · == o)) fun d q => d.queueEvent q 0x000B 0 0 0
  d.each (d.lodesOn h) fun d l => d.evictLode o l 0 0x0022

/-- Mover page and state index of DRAM and seam counts. -/
def memIdxHalf (k : Nat) : Half := pageHalf .mem k

/-- A half reset (R99, R101). -/
def Device.halfReset (d : Device) (h : Half) : Device :=
  let before := d
  let d := (d.abortSlots (·.touches h) rHalt).addCause (5 + h.idx)
  let d := (d.surviveHalf h).resetCanary h
  let d := d.stopPlls h
  let mine (q : Nat) : Bool := queHalf q == h
  let d := { d with
    regs := d.regs.filter fun e => !halfWord h e.1
    cross := { bad := d.cross.bad.filter (!halfWord h ·), inUse := d.cross.inUse.filter fun e => !halfWord h e.1 }
    power := { d.power with
      parts := (halfParts h).foldl (fun t k => tset {} k (d.part k).afterReset t) d.power.parts
      plan := d.power.plan.filter fun k => partHalf k != h
      group := d.power.group.filter fun k => partHalf k != h
      bootHalt := false
      selfwarm := dropHalf h idxHalf d.power.selfwarm
      warmDone := dropHalf h idxHalf d.power.warmDone
      converters := dropHalf h idxHalf d.power.converters }
    regul := {
      clusters := dropHalf h cluHalf d.regul.clusters, engines := dropHalf h cluHalf d.regul.engines
      captures := dropHalf h idxHalf d.regul.captures, rails := dropHalf h ralHalf d.regul.rails
      syncs := dropHalf h (fun g => if g < 2 then .a else .b) d.regul.syncs }
    govs := dropHalf h idxHalf d.govs
    therms := tset {} h.idx (d.therm h).afterReset d.therms
    compute := { d.compute with
      bays := dropHalf h bayHalf d.compute.bays, movers := dropHalf h moverHalf d.compute.movers
      mems := tmap {} (fun k x => if memIdxHalf k = h then { repairs := x.repairs } else x) d.compute.mems }
    service := { d.service with
      requests := d.service.requests.filter fun r => !mine r.queue
      sessions := d.service.sessions.filter fun s => !mine s.queue && s.half != h }
    deputy := { d.deputy with
      overman := dropHalf h idxHalf d.deputy.overman, reserve := dropHalf h idxHalf d.deputy.reserve } }
  let posted := (d.port h).posted
  let d := d.forgetAskers mine
  let d := { d with host := { queues := dropHalf h queHalf d.host.queues, ports := dropHalf h idxHalf d.host.ports } }
  let d := d.setPort h { posted }
  let d := d.setLinkEnd h { (d.linkEnd h).afterReset with mode := (d.linkEnd h.other).mode }
  let d := match h with
    | .a => { d with twi := { d.twi with ctxs := [], reply := [], pecErrs := 0#8, stretchErrs := 0#8, timeouts := 0#8 } }
    | .b => d.pmReset
  let d := Device.dramOff before ((d.startDeputy [h]).reapplyRecord [h]) [h]
  let d := match h with
    | .a => d
    | .b => d.pmBoot
  (d.planBoot fun k => partHalf k == h).advanceBoot

/-! ## PERSTh_N (R102, R260) -/

def setPersth (d : Device) (h : Half) (low : Bool) : Device :=
  { d with pins := { d.pins with persthLow := tset true h.idx low d.pins.persthLow } }

/-- PERSTh_N falls: the port resets and its queues are held (R101, R102, R103, R260). -/
def Device.persthFall (d : Device) (h : Half) : Device :=
  let d := setPersth d h true
  if d.pins.porstLow then d
  else
    let k := d.slotKey (match h with
      | .a => .hosta
      | .b => .hostb) h.idx
    let d := if (d.slotAt k).busy then d.endSlot k .aborted rAbort else d
    let d := d.setPort h { posted := (d.port h).posted }
    let lost := d.deputy.load.any fun l => queHalf l.queue == h
    let d := if lost then
        let o := d.ovman h
        let d := d.setOvman h (if o.st = .loading then { o with st := .absent } else o)
        { d with deputy := { d.deputy with load := none } }
      else d
    d.each (d.queueNumbers.filter (queHalf · == h)) fun d q =>
      d.modQueue q fun x => if x.st = .active then { x with st := .held } else x

/-! ## DORMANT and wake (R96, R97) -/

/-- Entry into DORMANT: everything ends, the last event goes out, and PD1-PD8 power down (one event; DESIGN CHOICE, LOG 17). -/
def Device.enterDormant (d : Device) : Device :=
  let d := ((d.endRequests (fun _ => true) 0x0002).endUnread (fun _ => true) 0x0002).endSessions fun _ => true
  let d := d.each d.queueNumbers fun d q => d.queueEvent q 0x000C 0 0 0
  let d := d.each d.queueNumbers Device.flushQueue
  let d := d.each ([0, 1, 4, 5, 6, 8, 2, 3, 7, 9].flatMap partClusters) Device.stopCluster
  let d := (((d.stopPlls .a).stopPlls .b).disableConvs .a).disableConvs .b
  let parts : Tab Part := (List.range 10).foldl (fun t k =>
    let p := d.part k
    tset {} k { p.afterReset with fail := p.fail } t) []
  let ends := tmap {} (fun _ e => { e with st := LinkState.off }) d.link.ends
  let d := { d with
    power := { d.power with
      parts, plan := [], group := [], creditOpen := false, selfwarm := [], warmDone := [], dormant := true }
    compute := { mems := d.compute.mems }
    link := { d.link with ends }
    deputy := { d.deputy with reserve := [] } }
  (d.loseService .a).loseService .b

def execDormant (s : State) : Host.Outcome State Fault Refusal :=
  runOn s fun d => if d.awake ∧ d.busySlots.isEmpty then d.enterDormant else d

/-- A wake event powers up BOOTSET with the settings in force (R97). -/
def Device.wake (d : Device) : Device :=
  let d := Device.addCause { d with power := { d.power with dormant := false } } 7
  (d.planBoot fun _ => true).advanceBoot

/-- WAKECFG bit i enables a wake source. -/
def Device.wakes (d : Device) (i : Nat) : Bool := d.power.dormant && !d.pins.porstLow && bit (d.reg .a pdmP 0x8C) i

def execWakeN (s : State) : Host.Outcome State Fault Refusal :=
  runOn s fun d => if d.wakes 0 then d.wake else d

/-- PERSTh_N rises: the endpoint trains once PD8 is ON; from DORMANT the device wakes. -/
def execPersthNDeassertion (h : Half) (s : State) : Host.Outcome State Fault Refusal :=
  runOn s fun d =>
    let was := tget true d.pins.persthLow h.idx
    let d := setPersth d h false
    if was ∧ d.wakes (1 + h.idx) then d.wake else d

/-! ## Domain commands (R85-R90) -/

/-- Words of the pages that lie in a domain, which its reset returns to their reset values (R101). -/
def domainWord (ks : List Nat) (key : Nat) : Bool :=
  (pageAt (key % 2 ^ 24)).any fun (p : PageId) => !keptWord key && (pagePart p).any ks.contains

/-- One entry of an image reloads what it holds of the pages of a domain (R101). -/
def Device.reloadDomain (ks : List Nat) (h : Half) (d : Device) (e : W32 × W32) : Device :=
  let off := fld e.1 23 0
  match fld e.1 31 24 with
  | 0 => if (pageAt off).any fun p => (pagePart p).any ks.contains then d.applyEntry h e else d
  | 1 =>
    if off ≠ 0x10 then d
    else d.each ((pownPages [h] e.2.toNat).filter fun x => (pagePart x.1).any ks.contains) fun d (p, _) =>
      d.setReg h p 0x1C (pownWord e.2.toNat (d.reg h p 0x1C))
  | _ => d

/-- A bay's counters return to 0. -/
def Bay.clear (b : Bay) : Bay :=
  { b with steps := 0#32, ops := 0#32, waitD := 0#32, waitS := 0#32, waitP := 0#32, nulls := 0#32, throt := 0#32
           corrected := 0#16, uncorrect := 0#16 }

/-- The counters that the pages of a part show return to 0, those that count since PORST_N apart (R101, R233-R236, R379). -/
def Device.clearUnits (d : Device) (k : Nat) : Device :=
  let h := partHalf k
  let mems (ps : List Nat) (d : Device) : Device := d.each ps fun d j => d.setMem j { d.mem j with ce := 0#32, ue := 0#32 }
  match bootRank k with
  | 4 => d.each (halfBays h) fun d b => d.modBay b Bay.clear
  | 1 => (mems [h.idx] d).each ((List.range 8).map (h.idx * 8 + ·)) fun d m => d.setMover m { d.mover m with tiles := 0#32 }
  | 3 => mems ((List.range 4).map (2 + h.idx * 4 + ·)) d
  | 2 => d.setLinkEnd h { d.linkEnd h with result := 0#8, replays := 0#32 }
  | _ => d

/-- A domain reset: power stays, the logic starts anew (R85, R98, R101). -/
def Device.domainReset (d : Device) (i : Nat) : Device :=
  let ks := domainParts i
  let hs := ks.map partHalf
  let d := d.each ks fun d k => d.abortSlots (·.touchesPart k) rDomain
  let d := if i = 7 then (d.ovmLoss hs).each d.queueNumbers Device.flushQueue else d
  let d := d.each ks fun d k => if i = 7 then
      let o := d.ovman (partHalf k)
      (d.loseService (partHalf k)).setOvman (partHalf k) o
    else d.loseContent k 0
  let d := { d with
    regs := d.regs.filter fun e => !domainWord ks e.1
    cross := { bad := d.cross.bad.filter (!domainWord ks ·), inUse := d.cross.inUse.filter fun e => !domainWord ks e.1 } }
  let d := d.each hs fun d h => d.each (d.imageOf h) (Device.reloadDomain ks h)
  let d := d.each ks Device.clearUnits
  d.each ks fun d k => (d.modPart k fun p => { p with st := .resetting }).creditsFollow k

/-- What a command that passed its checks does (R85). -/
def Device.domainCommand (d : Device) (i cmd : Nat) : Device :=
  let ks := domainParts i
  match cmd with
  | 1 => d.each ks fun d k => d.partOff k
  | 2 => d.each ks fun d k => if (d.part k).st = .on then d.startDown k true else d
  | 3 => d.each ks fun d k => if (d.part k).st = .on then d else d.startUp k
  | 4 => d.domainReset i
  | _ => d

/-- DCMDn takes a committed command (R27, R86). -/
def Device.putDcmd (d : Device) (i cmd : Nat) : Device :=
  let hs : List Half := if d.apart then [partHalf ((domainParts i).headD 0)] else [.a, .b]
  d.each hs fun d h => (d.setReg h pdmP (0x40 + 4 * i) (cpWord cmd)).bumpSeq h pdmP

/-- A committed command of a domain: DOMAIN, ENVELOPE and LINK are its checks (R43, R85, R301, R369). -/
def Device.dcmd (d : Device) (i cmd : Nat) : Device :=
  let allowed := d.awake && d.commandOk i cmd && !(decide (6 ≤ i) && d.apart)
    && (!(cmd == 2 || cmd == 3) || d.maskAllows (partHalf ((domainParts i).headD 0)) i)
  if allowed then (d.putDcmd i cmd).domainCommand i cmd else d

def execDcmdRetain (d : Fin 8) (s : State) : Host.Outcome State Fault Refusal := runOn s fun x => x.dcmd d 2
def execDcmdOn (d : Fin 8) (s : State) : Host.Outcome State Fault Refusal := runOn s fun x => x.dcmd d 3

/-- A committed DEVCMD (R86); 0 for a value it does not list. -/
def Device.deviceCommand (d : Device) (code : Nat) : Device :=
  match code with
  | 1 => d.enterDormant
  | 2 => d.warmReset 2
  | 3 => d.halfReset .a
  | 4 => d.halfReset .b
  | _ => d

/-! ## Cold inhibit and self-warm (R94, R95) -/

/-- End self-warm: CORE returns to OFF. -/
def Device.endSelfwarm (d : Device) (h : Half) : Device := (d.stopWarming h).partOff (corePart h)

/-- The inhibit clears after 20 scans: MEM of BOOTSET comes up, then CORE of BOOTSET, once a self-warm's power-down is over
(R94, R95; that BOOTSET governs CORE too is DEDUCED, LOG 30). -/
def Device.inhibitClear (d : Device) (h : Half) : Device :=
  let t := d.therm h
  if t.inhibit ∧ 20 ≤ t.inhibitRun ∧ d.awake then
    let d := d.setTherm h { t with inhibit := false }
    let d := { d with power := { d.power with warmDone := tset false h.idx false d.power.warmDone } }
    let d := if d.warming h then d.endSelfwarm h else d
    let down (k : Nat) : Bool := (d.part k).st.pageCode == some 0 || (d.part k).st == .down || (d.part k).st == .abandon
    (d.planBoot fun k => (k == memPart h || k == corePart h) && down k).advanceBoot
  else d

def execColdInhibitClear (h : Half) (s : State) : Host.Outcome State Fault Refusal := runOn s fun d => d.inhibitClear h

/-- Self-warm starts where SWEN, DOMMASK and the conditions of a power-up but for the inhibit allow it, and it has not run out
of time since the inhibit began (R85, R95). -/
def Device.selfwarm (d : Device) (h : Half) : Device :=
  let k := corePart h
  let off : Bool := (d.part k).st == .off || (d.part k).st == .inhibited
  if d.awake ∧ d.inhibited h ∧ bit (d.reg .a pdmP 0x88) 0 ∧ off ∧ !d.warming h ∧ !d.pins.tripLatch ∧ d.vinOk h
      ∧ d.maskAllows h (partDomain k) ∧ !(d.canary h).safe ∧ !tget false d.power.warmDone h.idx then
    let d := { d with power := { d.power with
      selfwarm := tset false h.idx true d.power.selfwarm, selfwarmAt := tset 0#64 h.idx (d.tb h) d.power.selfwarmAt } }
    d.startUp k
  else d

def execSelfwarmStart (h : Half) (s : State) : Host.Outcome State Fault Refusal := runOn s fun d => d.selfwarm h

/-- Self-warm has not cleared the inhibit within SWTIME (R95). -/
def Device.selfwarmEnd (d : Device) (h : Half) : Device :=
  if d.warming h ∧ d.awake then
    let n := fld (d.reg .a pdmP 0x88) 31 16
    let d := d.advanceTo h (tget 0#64 d.power.selfwarmAt h.idx + BitVec.ofNat 64 (n * 1000 * ms))
    let d := d.endSelfwarm h
    let d := { d with power := { d.power with warmDone := tset false h.idx true d.power.warmDone } }
    d.report h (unitReport 0x67 0x1E pdmP 0x88)
  else d

def execSelfwarmTimeout (h : Half) (s : State) : Host.Outcome State Fault Refusal := runOn s fun d => d.selfwarmEnd h

end Sys2Proof.Machine
end

