-- ==== Sys2Proof/Machine/GovernorHeat.lean ====
section
/-! DEFINITION. The ramp governor, the DVFS arbiter, temperatures and the package power budget (file 09; R293).
-/

namespace Sys2Proof.Machine

/-! ## Costs and cycles (R183-R189) -/

/-- Frequency code i is 400 MHz + i x 25 MHz (R190). -/
def codeMhz (i : Nat) : Nat := 400 + 25 * i

/-- Effective cost of a bay op that a lode states as c mA at 1,000 MHz, in 0.5 mA, rounded up (R184). -/
def Device.bayCost (d : Device) (h : Half) (k c : Nat) : Nat :=
  let g := d.gov h
  (2 * c * codeMhz g.active * (g.spender k).kcor + 63999) / 64000

/-- Bay k of a half runs the heater pattern: the half warms itself, and no lode has the bay (R95). -/
def Device.heating (d : Device) (h : Half) (k : Nat) : Bool :=
  let n := h.idx * 28 + k
  decide (k < 28) && d.warming h && d.bayUsable n && (d.bay n).slot.isNone

/-- One AONCLK cycle of one spender. A bay that fires null units counts them, one a cycle; the heater pattern costs a bay its whole
budget (R95, R183, R185, R188, R233; how many null ops a cycle holds and what the pattern costs is a DESIGN CHOICE, LOG 70). -/
def Device.refillSpender (d : Device) (h : Half) (k : Nat) : Device :=
  let g := d.gov h
  let heat := d.heating h k
  let d := if (g.spender k).fillsNull ∧ k < 28 then d.modBay (h.idx * 28 + k) fun b => { b with nulls := satInc b.nulls } else d
  d.modSpender h k fun x =>
    let x := if heat then { x with need := if x.level < x.budget then some x.budget else none }
      else if decide (k < 28) && (d.bay (h.idx * 28 + k)).slot.isNone then { x with need := none } else x
    x.cycle g.minimum (d.refill h k) (d.gust h k) (d.lullRate h k)

/-- One AONCLK cycle of a half's governor (R183). -/
def Device.refillCycle (d : Device) (h : Half) : Device :=
  (d.advanceBy h 1).each (List.range 32) fun d k => d.refillSpender h k

/-- A lull that has not reached its target 2 µs after the release began (R188). -/
def Device.lullTimeout (d : Device) (h : Half) (k : Nat) : Device :=
  d.modSpender h k fun x => match x.lull with
    | some (t, c) => if 200 ≤ c then { x with level := t, lull := none } else x
    | none => x

def execLullTimeout (h : Half) (k : Fin 32) (s : State) : Host.Outcome State Fault Refusal :=
  runOn s fun d => d.lullTimeout h k

/-! ## DVFS (R190-R194) -/

/-- The frequency target f_T of a half (R190, R194, R201). -/
def Device.fTarget (d : Device) (h : Half) : Nat :=
  let g := d.gov h
  if d.warming h then 0
  else if g.frozen then g.fT
  else min (d.cp .a (govP h) 0x64 % 32) (min g.powerCap (min g.thermCap g.senseCap))

/-- A frequency that the arbiter may go to: not above the core clock in force when a CORE cluster's fallback began, unless it goes
down (R174). -/
def Governor.mayTake (g : Governor) (f : Nat) : Bool := decide (f ≤ max g.active g.senseHeld)

/-- The VFTAB entry of a frequency code lies within FVLO-FVHI. -/
def Device.codeFits (d : Device) (h : Half) (i : Nat) : Bool :=
  let r := h.idx * 6
  let v := d.cp .a (govP h) (0x200 + 4 * i) % 512
  decide (d.ral r 0xA4 % 512 ≤ v ∧ v ≤ d.ral r 0xA8 % 512)

/-- The highest code at or below one whose VFTAB entry lies within FVLO-FVHI (R191). -/
def Device.selectable (d : Device) (h : Half) : Nat → Option Nat
  | 0 => if d.codeFits h 0 then some 0 else none
  | n + 1 => if d.codeFits h (n + 1) then some (n + 1) else d.selectable h n

/-- Lock bit of a half's spare PLL: ping is 3 and pong 4 (R48). -/
def Governor.spareBit (g : Governor) : Nat := if g.pong then 3 else 4

/-- The spare starts to lock to a frequency (R192). -/
def Device.startLock (d : Device) (h : Half) (f : Nat) : Device :=
  let g := d.gov h
  (d.setGov h { g with locking := some f }).setLock h g.spareBit false

/-- A frequency request (R174, R191, R192). -/
def Device.request (d : Device) (h : Half) (t : Nat) : Device :=
  let g := { d.gov h with fT := t, retry := false }
  let d := d.setGov h g
  if (d.part (corePart h)).st ≠ .on ∨ (d.canary h).safe then d
  else match d.selectable h t with
    | none => d
    | some f =>
      match g.locking, g.waiting with
      | none, _ => if f = g.active ∨ !g.mayTake f then d else d.startLock h f
      | some _, none => d.setGov h { g with waiting := some f }
      | some _, some _ =>
        ((d.setGov h { g with waiting := some f, supCount := satInc g.supCount }).perr .a (govP h) 4).interrupt h .superseded

/-- A change of f_T reaches the arbiter. -/
def Device.frequencyRequest (d : Device) (h : Half) : Device :=
  let t := d.fTarget h
  if t = (d.gov h).fT then d else d.request h t

def execFrequencyRequest (h : Half) (s : State) : Host.Outcome State Fault Refusal :=
  runOn s fun d => d.frequencyRequest h

/-- The rail's latest FOLLOW command has completed with SLEW_DONE at a code at least VFTAB of a frequency (R191). -/
def Device.slewReady (d : Device) (h : Half) (f : Nat) : Bool :=
  let x := d.rail (h.idx * 6)
  !x.slew.busy && x.slew.done && !x.follow.holding
    && decide (d.cp .a (govP h) (0x200 + 4 * f) % 512 ≤ x.follow.code)

/-- The lock is over: a waiting request starts to lock at once, unless it asks for the frequency in force (R192). -/
def Device.nextLock (d : Device) (h : Half) (g : Governor) : Device :=
  let d := d.setGov h { g with locking := none, waitSlew := none, waiting := none }
  match g.waiting with
  | none => d
  | some w => if w = g.active ∨ !g.mayTake w then d else d.startLock h w

/-- The switch to the locked frequency (R192); a frequency that a fallback has come to forbid is dropped (R174). -/
def Device.switchTo (d : Device) (h : Half) (f : Nat) : Device :=
  let g := d.gov h
  d.nextLock h (if g.mayTake f then { g with active := f, pong := !g.pong } else g)

/-- The spare PLL locks: down at once, up after the slew (R191, R192). -/
def Device.lockComplete (d : Device) (h : Half) : Device :=
  let g := d.gov h
  match g.locking, g.waitSlew with
  | some f, none =>
    let d := d.setLock h g.spareBit true
    if f ≤ g.active ∨ !g.mayTake f ∨ d.slewReady h f then d.switchTo h f
    else d.setGov h { g with waitSlew := some f }
  | _, _ => d

def execPllLockComplete (h : Half) (s : State) : Host.Outcome State Fault Refusal := runOn s fun d => d.lockComplete h

/-- An upward switch that waited for SLEW_DONE. -/
def Device.frequencySwitch (d : Device) (h : Half) : Device :=
  match (d.gov h).waitSlew with
  | some f => if d.slewReady h f then d.switchTo h f else d
  | none => d

def execFrequencySwitch (h : Half) (s : State) : Host.Outcome State Fault Refusal :=
  runOn s fun d => d.frequencySwitch h

/-- The spare has not locked within 60 µs (R193). -/
def Device.lockFail (d : Device) (h : Half) : Device :=
  let g := d.gov h
  match g.locking, g.waitSlew with
  | some f, none =>
    let d := d.setGov h { g with locking := none, waiting := none, retry := true }
    (d.perr .a (govP h) 1).report h (unitReport 0x66 0x40 (govP h) 0x84 f)
  | _, _ => d

def execDvfsLockFail (h : Half) (s : State) : Host.Outcome State Fault Refusal := runOn s fun d => d.lockFail h

/-! ## Temperatures (R195-R198) -/

/-- A reading in 0.25 °C from a count (R195). -/
def sensorReading (h : Half) (i n : Nat) : Int :=
  let n1 : Int := Config.sensorN1 h.idx i
  let n2 : Int := Config.sensorN2 h.idx i
  let den := n2 - n1
  let num := ((n : Int) - n1) * 320
  100 + (if den < 0 then roundDiv (-num) (-den).toNat else roundDiv num den.toNat)

/-- The count lies at or beyond the count of a temperature in °C: compared exactly (R198). -/
def countReaches (h : Half) (i n : Nat) (t : Int) : Bool :=
  let n1 : Int := Config.sensorN1 h.idx i
  let n2 : Int := Config.sensorN2 h.idx i
  let lhs := ((n : Int) - n1) * 80
  let rhs := (t - 25) * (n2 - n1)
  if n1 < n2 then decide (rhs ≤ lhs) else decide (lhs ≤ rhs)

/-- The reading lies within -50 °C to 150 °C. -/
def inSpan (r : Int) : Bool := decide (-200 ≤ r ∧ r ≤ 600)

/-- A sensor's reading is plausible (R196). -/
def Device.plausibleReading (d : Device) (h : Half) (i : Nat) : Bool :=
  let r := (d.sensor h i).reading
  let others := (d.validSensors h).filter fun j => j != i && sensorGroup j == sensorGroup i
  let sum := (others.map fun j => (d.sensor h j).reading).sum
  let m : Int := others.length
  inSpan r && (others.isEmpty || decide (-100 * m ≤ r * m - sum ∧ r * m - sum ≤ 100 * m))

def Device.modSensor (d : Device) (h : Half) (i : Nat) (f : Sensor → Sensor) : Device :=
  let t := d.therm h
  d.setTherm h { t with sensors := tset {} i (f (tget {} t.sensors i)) t.sensors }

/-- Valid sensors of a group. -/
def Device.groupSensors (d : Device) (h : Half) (g : Nat) : List Nat := (d.validSensors h).filter (sensorGroup · == g)

/-- A condition of one group after a scan: set, cleared by its hysteresis, or kept. -/
def latchBit (old set clear : Bool) : Bool := if set then true else if clear then false else old

/-- The next value of the three conditions of R197, a bit per group. -/
def Device.conditionBits (d : Device) (h : Half) (old : BitVec 3) (set clear : Nat → Int → Bool) : BitVec 3 :=
  let next (g : Nat) : Bool :=
    let rs := (d.groupSensors h g).map fun i => (d.sensor h i).reading
    latchBit (old.getLsbD g) (rs.any (set g)) (rs.all (clear g))
  BitVec.ofNat 3 (flag (next 0) 0 + flag (next 1) 1 + flag (next 2) 2)

/-- HYST in 0.25 °C (R203). -/
def Device.hyst (d : Device) (h : Half) : Int := 4 * (fld (d.reg .a (thmP h) 0x90) 3 0 : Nat)

/-- Reports of the groups whose condition has just set; detail is the first sensor beyond its threshold. -/
def Device.conditionReports (d : Device) (h : Half) (old new : BitVec 3) (kind : Nat) (set : Nat → Int → Bool) : Device :=
  d.each ((List.range 3).filter fun g => new.getLsbD g && !old.getLsbD g) fun d g =>
    let i := ((d.groupSensors h g).find? fun i => set g (d.sensor h i).reading).getD 0
    d.report h (unitReport 0x65 kind (thmP h) (0x100 + 4 * i) i)

/-- Compare every valid sensor against the thresholds (R197). -/
def Device.compareSensors (d : Device) (h : Half) : Device :=
  let t := d.therm h
  let hy := d.hyst h
  let thr (k g : Nat) : Int := 4 * d.threshold h k g
  let hot (k g : Nat) (r : Int) : Bool := decide (thr k g ≤ r)
  let cool (k g : Nat) (r : Int) : Bool := decide (r < thr k g - hy)
  let cold (g : Nat) (r : Int) : Bool := decide (r < thr 1 g)
  let warmAgain (g : Nat) (r : Int) : Bool := decide (thr 1 g + hy ≤ r)
  let warn := d.conditionBits h t.warn (hot 2) (cool 2)
  let throttle := d.conditionBits h t.throttle (hot 3) (cool 3)
  let coldWarn := d.conditionBits h t.coldWarn cold warmAgain
  let warm := d.warmEnough h
  let inhibit := t.inhibit || !warm
  let valid := d.validSensors h
  let hottest := valid.foldl (fun b i => if (d.sensor h b).reading < (d.sensor h i).reading then i else b) (valid.headD 0)
  let d := d.setTherm h { t with
    warn, throttle, coldWarn, inhibit, hottest, inhibitRun := if warm then satNat 20 (t.inhibitRun + 1) else 0 }
  let d := d.conditionReports h t.coldWarn coldWarn 0x38 cold
  let d := d.conditionReports h t.warn warn 0x39 (hot 2)
  let d := d.conditionReports h t.throttle throttle 0x3A (hot 3)
  if inhibit ∧ !t.inhibit then d.report h (unitReport 0x65 0x1D (thmP h)) else d

/-- The hardware trip: both halves at once, until PORST_N (R64, R198). -/
def Device.thermalTrip (d : Device) (i : Nat) : Device :=
  let d := { d with pins := { d.pins with tripLatch := true } }
  let d := d.each (List.range 10) fun d k => d.dropPart k .tripped (if (d.part k).st = .up then 2#8 else 0#8) 0x3B
  let d := { d with power := { d.power with plan := [], group := [], selfwarm := [] } }
  let d := d.addCause 8
  d.each [Half.a, .b] fun d h => d.report h (unitReport 0x65 0x3B (thmP h) (0x100 + 4 * i) i)

/-- One scan of a half's sensors at a timebase multiple of 5,000 (R195). -/
def Device.thermalScan (d : Device) (h : Half) (counts : List Nat) : Device :=
  if d.pins.porstLow then d
  else
    let d := (d.advanceGrid h 5000).checkStored h (thmP h)
    let t := d.therm h
    let d := d.setTherm h { t with scans := t.scans + 1#32 }
    let tag := (t.scans + 1#32).setWidth 8
    let d := d.each (List.range 60) fun d i =>
      let n := counts.getD i 0
      d.modSensor h i fun x => { x with reading := sensorReading h i n, count := n, scan := tag }
    let good := (List.range 60).map (d.plausibleReading h)
    let d := d.each (List.range 60) fun d i =>
      let ok := good.getD i false
      d.modSensor h i fun x => { x with bad := if ok then 0 else satNat 3 (x.bad + 1), good := if ok then satNat 20 (x.good + 1) else 0 }
    let d := d.compareSensors h
    let tripped := (List.range 60).find? fun i =>
      let x := d.sensor h i
      inSpan x.reading && countReaches h i x.count (d.threshold h 4 (sensorGroup i))
    match tripped with
    | some i => if d.pins.tripLatch then d else d.thermalTrip i
    | none => d

def execThmSensorFault (h : Half) (i : Fin 60) (s : State) : Host.Outcome State Fault Refusal :=
  runOn s fun d =>
    let x := d.sensor h i
    if 3 ≤ x.bad ∧ !x.invalid then
      let d := d.modSensor h i fun x => { x with invalid := true }
      (d.perr .a (thmP h) 1).report h (unitReport 0x65 0x3C (thmP h) (0x100 + 4 * i) i)
    else d

def execSensorValid (h : Half) (i : Fin 60) (s : State) : Host.Outcome State Fault Refusal :=
  runOn s fun d =>
    let x := d.sensor h i
    if x.invalid ∧ 20 ≤ x.good then d.modSensor h i fun x => { x with invalid := false } else d

/-! ## The 1 ms boundary (R184, R197, R199, R200, R293) -/

/-- A rail's mean power over the elapsed millisecond, in units of 7.8125 nV x 1 mA. -/
def Rail.meanPower (x : Rail) : Int := if x.powerN = 0 then 0 else x.power / x.powerN

/-- A half's bin in mW (R199; DEDUCED, LOG 20). -/
def Device.binOf (d : Device) (h : Half) : Nat :=
  let rails := (List.range 6).map (h.idx * 6 + ·)
  (((rails.map fun r => (d.rail r).meanPower).sum + Config.islandOverhead h.idx) / 128000000).toNat

/-- CORE power of both halves in mW (R95). -/
def Device.corePower (d : Device) : Nat := (((d.rail 0).meanPower + (d.rail 6).meanPower) / 128000000).toNat

/-- KCOR after one millisecond (R184): ratio of measured current to level, by cross-multiplication. -/
def Device.kcorStep (d : Device) (h : Half) (k : Nat) : Device :=
  let g := d.gov h
  let x := g.spender k
  let cycles := if x.cycles = 0 then 1 else x.cycles
  let sumH := if x.cycles = 0 then x.level else x.sumH
  let n := spenderCluster h k
  let act : Int := x.sumI - Config.quiescent n g.active * x.samplesI
  -- act / samples over sumH / (2 cycles), against (KCOR ± 2) / 64
  let lhs : Int := act * (2 * cycles) * 64
  let at_ (j : Nat) : Int := (j : Int) * sumH * x.samplesI
  let kcor :=
    if k < 28 ∧ x.samplesI ≠ 0 ∧ 2000 * cycles ≤ sumH then
      if at_ (x.kcor + 2) < lhs then min 96 (x.kcor + 1)
      else if lhs < at_ (x.kcor - 2) then max 48 (x.kcor - 1) else x.kcor
    else x.kcor
  d.modSpender h k fun x => { x with kcor, sumH := 0, cycles := 0, sumI := 0, samplesI := 0 }

/-- R200's step of one half, on package figures in mW. The detail of its reports is the frequency code in force (R204; DEDUCED, LOG 71). -/
def Device.powerStep (d : Device) (h : Half) : Device :=
  let g := d.gov h
  let lim (o : Nat) : Nat := d.cp .a (govP h) o % 1024 * 1000
  let bmin := d.cp .a (govP h) 0x58 % 512
  let fmax := d.cp .a (govP h) 0x64 % 32
  let top := d.topFraction h
  let over_ := decide (lim 0x5C < g.fast ∨ lim 0x60 < g.slow)
  let under := decide (100 * g.fast < 97 * lim 0x5C ∧ 100 * g.slow < 97 * lim 0x60)
  let d :=
    if over_ then
      if bmin < g.bfrac then d.setBfrac h (max bmin (g.bfrac - 16))
      else if 0 < g.powerCap then d.setGov h { g with powerCap := g.powerCap - 1 }
      else if 16 < g.bfrac then d.setBfrac h (max 16 (g.bfrac - 16))
      else (d.perr .a (govP h) 2).report h (unitReport 0x66 0x3E (govP h) 0x80 g.active)
    else if under then
      if g.bfrac < bmin ∧ g.powerCap = 0 then d.setBfrac h (min (min bmin top) (g.bfrac + 16))
      else if g.powerCap < fmax then d.setGov h { g with powerCap := g.powerCap + 1 }
      else if g.bfrac < top then d.setBfrac h (min top (g.bfrac + 16))
      else d
    else d
  let d := if over_ ∧ !g.overLimit then d.report h (unitReport 0x66 0x3D (govP h) 0x8C g.active) else d
  let d := d.modGov h fun g => { g with overLimit := over_ }
  if d.cp h depP 0x140 % 1024 * 1000 < g.fast then d.report h (unitReport 0x66 0x3F (govP h) 0x8C g.active) else d

/-- The thermal cap and the BFRAC it takes (R196, R197). -/
def Device.thermalStep (d : Device) (h : Half) : Device :=
  let g := d.gov h
  let t := d.therm h
  let blind := decide (8 ≤ ((List.range 48).filter fun i => (d.sensor h i).invalid).length)
  let g :=
    if t.throttle ≠ 0#3 then
      let run := if g.thermCap = 0 then satNat 11 (g.hotAt400 + 1) else 0
      if 10 ≤ run then
        let cut := g.bfrac - max 16 (g.bfrac - 16)
        { g with bfrac := g.bfrac - cut, throttled := g.throttled + cut, hotAt400 := run }
      else { g with thermCap := g.thermCap - 1, hotAt400 := run }
    else if blind then { g with hotAt400 := 0 }
    else if g.thermCap < 24 then { g with thermCap := g.thermCap + 1, hotAt400 := 0 }
    else
      let give := min 16 (min g.throttled (d.topFraction h - g.bfrac))
      { g with bfrac := g.bfrac + give, throttled := if give = 0 then 0 else g.throttled - give, hotAt400 := 0 }
  let f := g.bfrac
  let d := d.setGov h { g with bfrac := (d.gov h).bfrac, thermCap := if blind then 0 else g.thermCap }
  d.setBfrac h f

/-- A half's boundary before the exchange: its bin, and KCOR. -/
def Device.binStep (d : Device) (h : Half) : Device :=
  let b := d.binOf h
  let d := d.modGov h fun g => { g with bin := b }
  let d := d.each (List.range 32) fun d k => d.kcorStep h k
  d.each ((List.range 6).map (h.idx * 6 + ·)) fun d r => d.modRail r fun x => { x with power := 0, powerN := 0 }

/-- The package figures of a half: both bins, or twice its own where the other's has not come (R199). -/
def Device.packageStep (d : Device) (h : Half) : Device :=
  let g := d.gov h
  let other := if d.apart then g.otherBin else some (d.gov h.other).bin
  let sum := g.bin + other.getD g.bin
  let bins := (sum :: g.bins).take 100
  d.setGov h { g with otherBin := none, bins, fast := sum, slow := bins.sum / bins.length }

/-- R293, from the values in force. -/
def Device.capacity (d : Device) : Nat :=
  let part (h : Half) : Nat :=
    let g := d.gov h
    let live := (halfBays h).filter fun k => !(d.bay k).isolated && !(d.bay k).retired
    (live.map fun k => d.rating (spenderCluster h (k % 28))).sum * codeMhz (d.fTarget h) * g.bfrac
  10000 * (part .a + part .b) / (56 * 16000 * 1000 * 256)

/-- Overman recomputes and publishes the capacity estimate (R293). -/
def Device.capacityStep (d : Device) : Device :=
  if !d.anyServing then d
  else
    let c := d.capacity
    let v := d.service
    let moved := decide (v.policy.capDelta ≤ c - v.published ∨ v.policy.capDelta ≤ v.published - c)
    let d := { d with service := { v with capacity := c } }
    if v.retireDue ∨ moved then
      let d := { d with service := { d.service with published := c, retireDue := false } }
      if d.apart then d.each ([Half.a, .b].filter d.serving) fun d h => d.eventFrom h 0x0008 0 c 0
      else d.eventFrom .a 0x0008 0 c 0
    else d

/-- BFRAC of a half that warms itself: a free value that, by the power measured, keeps the CORE power of both halves at or below
SWPWR, and that never undoes a step down of this boundary (R95, R194; DESIGN CHOICE, LOG 19). -/
def Device.warmFraction (d : Device) (h : Half) (before core : Nat) : Nat :=
  let lim := fld (d.reg .a pdmP 0x88) 15 8 * 1000
  let now := (d.gov h).bfrac
  let f := min (Config.warmFraction lim core) (if core = 0 then 256 else before * lim / core)
  max 1 (min f (if now < before then now else d.topFraction h))

/-- The arbiter of one half on a boundary; `core` is the CORE power of both halves over the elapsed millisecond. -/
def Device.arbiterStep (d : Device) (h : Half) (core : Nat) : Device :=
  let b := (d.gov h).bfrac
  let d := ((d.checkStored h (govP h)).powerStep h).thermalStep h
  let d := d.modGov h fun g => { g with senseCap := g.senseHeld }
  if d.warming h then d.setBfrac h (d.warmFraction h b core)
  else if (d.gov h).retry then d.request h (d.fTarget h) else d

/-- Time passes to the next 1 ms boundary, and both halves act on it. -/
def Device.msBoundary (d : Device) : Device :=
  if d.pins.porstLow then d
  else
    let d := d.advanceGrid .a ms
    let d := d.advanceTo .b d.time.tbA
    let core := d.corePower
    let d := (d.binStep .a).binStep .b
    let d := (d.packageStep .a).packageStep .b
    ((d.arbiterStep .a core).arbiterStep .b core).capacityStep

def execOneMsBoundary (s : State) : Host.Outcome State Fault Refusal := runOn s Device.msBoundary

end Sys2Proof.Machine
end

