-- ==== Sys2Proof/Machine/Tiles.lean ====
section
/-! DEFINITION. Tiles and what one op computes from them: layouts, formats, matrix and vector operations (R206-R209, R222). -/

namespace Sys2Proof.Machine

/-! ## Formats and layouts (R208, R209) -/

/-- Element width in bits of a format code: 0 INT8, 1 E4M3, 2 E5M2, 3 FP16, 4 BF16, 5 FP32, 6 INT32. -/
def fmtBits (f : Nat) : Nat := if f < 3 then 8 else if f < 5 then 16 else 32

/-- The floating format of a code. -/
def fmtOf (f : Nat) : Fmt :=
  match f with
  | 1 => fmtE4M3
  | 2 => fmtE5M2
  | 3 => fmtF16
  | 4 => fmtBF16
  | _ => fmtF32

/-- Rows and columns of a tile of w-bit elements (R208). -/
def tileRows (w : Nat) : Nat := if w = 32 then 32 else 64
def tileCols (w : Nat) : Nat := if w = 8 then 64 else 32

/-- Elements of a tile of w-bit elements, in ascending byte offset. -/
def tileElems (w : Nat) : List Byte → Nat → List Nat
  | _, 0 => []
  | t, n + 1 => leNat (t.take (w / 8)) :: tileElems w (t.drop (w / 8)) n

/-- The elements of a whole tile. -/
def elemsOf (w : Nat) (t : Tile) : List Nat := tileElems w t (tileRows w * tileCols w)

/-- A tile, or several, from elements in ascending byte offset. -/
def packElems (w : Nat) (xs : List Nat) : List Byte := xs.flatMap (leBytes (w / 8))

/-- Cut bytes into n tiles. -/
def cutTiles : Nat → List Byte → List Tile
  | 0, _ => []
  | n + 1, bs => bs.take 4096 :: cutTiles n (bs.drop 4096)

/-- Index of element (r, c) of a matrix of C columns held as tiles of w-bit elements, the tiles row by row (DESIGN CHOICE, LOG 8). -/
def blockIndex (w cols r c : Nat) : Nat :=
  let tr := tileRows w
  let tc := tileCols w
  (r / tr * (cols / tc) + c / tc) * (tr * tc) + r % tr * tc + c % tc

/-- Elements of a matrix held as tiles of `wi` bits, in the order in which tiles of `wo` bits hold it: the inverse of
blockIndex for wo, composed with blockIndex for wi. -/
def reorder (wi wo rows cols : Nat) (xs : List Nat) : List Nat :=
  let tr := tileRows wo
  let tc := tileCols wo
  (List.range (rows * cols)).map fun p =>
    let t := p / (tr * tc)
    let o := p % (tr * tc)
    let r := t / (cols / tc) * tr + o / tc
    let c := t % (cols / tc) * tc + o % tc
    xs.getD (blockIndex wi cols r c) 0

/-! ## Values -/

/-- An integer as a value. -/
def intVal (i : Int) : FVal := .fin (decide (i < 0)) i.natAbs 0

/-- The value of an element. -/
def elemVal (f x : Nat) : FVal :=
  match f with
  | 0 => intVal (toSigned 8 x)
  | 6 => intVal (toSigned 32 x)
  | _ => fdecode (fmtOf f) x

/-- An element of format f from a value (R207): INT8 and the 8-bit floats saturate, the floats
follow IEEE 754; INT32 of a value it does not hold is free (DESIGN CHOICE, LOG 8). -/
def elemOf (f : Nat) (src : W32) (v : FVal) : Nat :=
  let payload := Config.nanPayload 0x1C src 0#32
  match f with
  | 0 =>
    (match v with
    | .nan => (Config.nanToInt src).toNat
    | .inf neg => ofSigned 8 (if neg then -128 else 127)
    | v => ofSigned 8 (clampInt (-128) 127 ((froundInt v).getD 0)))
  | 6 =>
    -- only a result that INT32 holds exactly is stated
    (match froundInt v with
    | some i => if feq v (intVal i) && decide (-2 ^ 31 ≤ i ∧ i < 2 ^ 31) then ofSigned 32 i else (Config.toInt32 src).toNat
    | none => (Config.toInt32 src).toNat)
  | 1 => fencode fmtE4M3 true payload v
  | 2 => fencode fmtE5M2 true payload v
  | _ => fencode (fmtOf f) false payload v

/-- Conversion of one element. -/
def convElem (fi fo x : Nat) : Nat := elemOf fo (w32 x) (elemVal fi x)

/-! ## Matrix operations (R206, R222) -/

/-- The accumulator block as 64 x 64 words in its four quadrant tiles. -/
def accWords (bs : List Byte) : List Nat := tileElems 32 bs 4096

/-- One accumulator of MMA: the products of a row of A and a column of B added one by one in the free order (DESIGN CHOICE, LOG 8). -/
def mmaSum (fa fb : Nat) (acc : Nat) (row col : List Nat) : Nat :=
  let n := row.length
  if fa = 0 then
    let s : Int := ((row.zip col).map fun (x, y) => toSigned 8 x * toSigned 8 y).sum
    ofSigned 32 (acc + s)
  else
    (rankOrder n).foldl (fun a k =>
      (round32 (fadd (fdecode fmtF32 a) (fmul (elemVal fa (row.getD k 0)) (elemVal fb (col.getD k 0))))).toNat) acc

/-- MMA: the A tile holds rows of A, the B tile columns of B as its rows. -/
def mma (fa fb : Nat) (acc a b : List Byte) : List Byte :=
  let wa := fmtBits fa
  let n := tileCols wa
  let ea := elemsOf wa a
  let eb := elemsOf (fmtBits fb) b
  let ws := accWords acc
  packElems 32 <| (List.range 4096).map fun p =>
    let q := p / 1024
    let r := q / 2 * 32 + p % 1024 / 32
    let c := q % 2 * 32 + p % 32
    mmaSum fa fb (ws.getD p 0) ((ea.drop (r * n)).take n) ((eb.drop (c * n)).take n)

/-- ACCOUT: the block in 32-bit tiles, or converted into tiles of the output format. -/
def accOut (fi fo : Nat) (acc : List Byte) : List Tile :=
  let wo := fmtBits fo
  let ws := accWords acc
  let conv := if fi = fo then ws else ws.map (convElem fi fo)
  cutTiles (wo / 8) (packElems wo (reorder 32 wo 64 64 conv))

/-! ## Vector operations (R207, R222) -/

/-- Round a value to a vector format. -/
def vround (f : Nat) (op : Nat) (x y : Nat) (v : FVal) : Nat :=
  fencode (fmtOf f) false (Config.nanPayload op (w32 x) (w32 y)) v

/-- MIN and MAX of two elements. -/
def vextreme (f : Nat) (op : Nat) (less : Bool) (x y : Nat) : Nat :=
  let a := elemVal f x
  let b := elemVal f y
  if flt a b then (if less then x else y)
  else if flt b a then (if less then y else x)
  else if Config.pickSecond op (w32 x) (w32 y) then y else x

/-- The relation of CMP. -/
def vrelation (param : W32) (f x y : Nat) : Bool :=
  let a := elemVal f x
  let b := elemVal f y
  match fld param 2 0 with
  | 0 => feq a b
  | 1 => flt a b
  | 2 => flt a b || feq a b
  | 3 => !feq a b
  | n => Config.compareOther (BitVec.ofNat 3 n) (w32 x) (w32 y)

/-- One element of a two-operand or three-operand vector op; `z` is the element of the tile at the accumulator block. -/
def vector2 (op f : Nat) (param : W32) (x y z : Nat) : Nat :=
  let a := elemVal f x
  let b := elemVal f y
  match op with
  | 0x10 => vround f op x y (fadd a b)
  | 0x11 => vround f op x y (fmul a b)
  | 0x12 => vround f op x y (fadd (fmul a b) (elemVal f z))
  | 0x13 => vextreme f op true x y
  | 0x14 => vextreme f op false x y
  | 0x15 => (Config.compareWord (vrelation param f x y)).toNat % 2 ^ fmtBits f
  | 0x16 => if Config.selectSecond param (w32 x) (w32 y) then y else x
  | 0x17 => fexp (fmtOf f) x
  | 0x18 => frecip (fmtOf f) x
  | _ => frsqrt (fmtOf f) x

/-- The reduction of one row: a sum rounded at every addition in the free order, or a maximum (DESIGN CHOICE, LOG 8). -/
def reduceRow (op f : Nat) (row : List Nat) : Nat :=
  if op = 0x1A then
    (rankOrder row.length).foldl (fun a k => vround f op a (row.getD k 0) (fadd (elemVal f a) (elemVal f (row.getD k 0)))) 0
  else
    match row with
    | [] => 0
    | x :: xs => xs.foldl (vextreme f op false) x

/-- ROWSUM and ROWMAX: the columns that hold the result, and what the others hold, are free (DESIGN CHOICE, LOG 8). -/
def reduceTile (op f : Nat) (a : Tile) : Tile :=
  let w := fmtBits f
  let cols := tileCols w
  let xs := elemsOf w a
  packElems w <| (List.range (tileRows w)).flatMap fun r =>
    let v := reduceRow op f ((xs.drop (r * cols)).take cols)
    (List.range cols).map fun c => if Config.reduceHolds c then v else (Config.reduceFill r c).toNat % 2 ^ w

/-- The elementwise vector ops. -/
def vectorTile (op f : Nat) (param : W32) (a b acc : Tile) : Tile :=
  let w := fmtBits f
  let xs := elemsOf w a
  let ys := elemsOf w b
  let zs := elemsOf w acc
  packElems w ((xs.zip (ys.zip zs)).map fun (x, y, z) => vector2 op f param x y z)

/-- Tiles a conversion reads and writes. -/
def cvtReads (fi fo : Nat) : Nat := max 1 (fmtBits fi / fmtBits fo)
def cvtWrites (fi fo : Nat) : Nat := max 1 (fmtBits fo / fmtBits fi)

/-- CVT: the matrix that the tiles of the narrower format hold keeps its rows and columns (DESIGN CHOICE, LOG 8). -/
def cvtTiles (fi fo : Nat) (ins : List Tile) : List Tile :=
  let wi := fmtBits fi
  let wo := fmtBits fo
  let w := min wi wo
  let xs := (ins.flatMap (elemsOf wi)).map (convElem fi fo)
  cutTiles (cvtWrites fi fo) (packElems wo (reorder wi wo (tileRows w) (tileCols w) xs))

/-- Logits of a batch row as binary32 words: the tiles' elements in ascending byte offset, the first V of them (DESIGN CHOICE, LOG 8). -/
def logitsOf (f vocab : Nat) (ins : List Tile) : List W32 :=
  ((ins.flatMap (elemsOf (fmtBits f))).take vocab).map fun x => if f = 5 then w32 x else round32 (elemVal f x)

/-- Tiles of logits a SAMPLE reads: those that hold V logits, and at most what the stream's depth lets wait (DESIGN CHOICE, LOG 8). -/
def logitTiles (f vocab depth : Nat) : Nat := min (max 1 ((vocab * fmtBits f + 32767) / 32768)) (max 1 depth)

end Sys2Proof.Machine
end

