-- ==== Sys2Proof/Machine/Bays.lean ====
section
/-! DEFINITION. Bays, streams, tile movers and steps: firing ops, tallies, step boundaries, bay and memory faults
(R205-R216, R229-R233, R276-R280, R374-R377). -/

namespace Sys2Proof.Machine

/-! ## Streams and programs -/

def Lode.stream (x : Lode) (i : Nat) : Stream := tget {} x.streams i

/-- A tally of the stream has moved: one of its counters differs (R213, R216). -/
def Stream.movesFrom (s t : Stream) : Bool :=
  s.space != t.space || s.data != t.data || s.flight != t.flight || s.spaceMsgs != t.spaceMsgs || s.dataMsgs != t.dataMsgs

/-- Change a stream; a tally movement is stamped. -/
def Device.modStream (d : Device) (l i : Nat) (f : Stream → Stream) : Device :=
  d.modLode l fun x =>
    let s := x.stream i
    let t := f s
    let t := if t.movesFrom s then { t with moved := d.tb (endOn s.consumer) } else t
    { x with streams := tset {} i t x.streams }

/-- Numbers of a lode's streams. -/
def Lode.streamNumbers (x : Lode) : List Nat := x.streams.map (·.1)

/-- The tensor a memory stream reads (R220). -/
def Lode.tensorOf (x : Lode) (s : Stream) : Option Tensor :=
  if s.tensor = 0xFFFFFFFF#32 then none else x.tensors.find? (·.ident == s.tensor)

/-- A tile that nothing gives (DESIGN CHOICE, LOG 8). -/
def looseTile (i : Nat) : Tile := (List.range 4096).map (Config.looseByte i)

/-- The next tile a memory stream carries: the tensor's tiles in their order, from the first again after the last (DESIGN CHOICE, LOG 9). -/
def Lode.memoryTile (x : Lode) (i : Nat) (s : Stream) : Tile :=
  match x.tensorOf s with
  | none => looseTile i
  | some t => if t.tiles = 0 then looseTile i else getBytes x.image (t.offset + s.begun % t.tiles * 4096) 4096

/-- A producer writes a tile: the space tally is spent, and the data tally goes to the consumer as a message (R213). -/
def Stream.put (s : Stream) (t : Tile) : Stream :=
  { s with space := s.space - 1, tiles := s.tiles ++ [t], dataMsgs := s.dataMsgs + 1 }

/-- A consumer takes n tiles and frees them: the space tallies go back as messages (R213). -/
def Stream.take (s : Stream) (n : Nat) : Stream :=
  { s with data := s.data - n, tiles := s.tiles.drop n, spaceMsgs := s.spaceMsgs + n }

/-! ## Seam access controllers (R182, R184, R210, R213) -/

/-- Cost of a seam access in 0.5 mA. -/
def seamCost : Nat := 2 * Config.seamAccessCost

/-- The seam layer a tile of a stream is read from by a tile mover; none where its tensor has no seam copy (R210, R220). -/
def Device.moverLayer (d : Device) (l i : Nat) : Option Nat :=
  let x := d.lode l
  if decide (i < 0x10000) && (x.tensorOf (x.stream i)).any (·.inSeam) then some (Config.tileLayer l i % 4) else none

/-- Movers of a half. -/
def halfMovers (h : Half) : List Nat := (List.range 8).map (h.idx * 8 + ·)

/-- The access controller of a layer has a unit to serve: a stream whose tallies allow one, or a tile a mover is reading. -/
def Device.seamPending (d : Device) (h : Half) (n : Nat) : Bool :=
  let at_ (e : W16) : Bool := endType e == 2 && endOn e == h && endIndex e == n
  (d.usedSlots.filter fun l => (d.lode l).stepping).any (fun l => (d.lode l).streams.any fun e =>
    (at_ e.2.producer && decide (0 < e.2.space ∧ e.2.begun < e.2.perStep)) || (at_ e.2.consumer && decide (0 < e.2.data)))
  || (halfMovers h).any fun m => (d.mover m).moving.any fun e => d.moverLayer e.1 e.2 == some n

/-- A lode steps on a half. -/
def Device.stepsOn (d : Device) (h : Half) : Bool := d.usedSlots.any fun l => (d.lode l).stepping && (d.lode l).halves.contains h

/-- An access controller without a unit to serve is idle and releases its level (R188); under the minimum budget only once no step is
left on its half (R201). -/
def Device.restSeam (d : Device) (h : Half) (n : Nat) : Device :=
  if d.seamPending h n ∨ ((d.gov h).minimum ∧ d.stepsOn h) then d else d.releaseTo h (28 + n) 0

/-- A seam access controller that produces a stream writes what its tallies allow. -/
def Device.seamProduce (l i : Nat) (h : Half) (k : Nat) : Nat → Device → Device
  | 0, d => d
  | n + 1, d =>
    let s := (d.lode l).stream i
    if s.space = 0 ∨ s.perStep ≤ s.begun then d
    else match d.draw h k seamCost with
      | (false, d) => d
      | (true, d) =>
        let t := (d.lode l).memoryTile i s
        (d.modStream l i fun s => { s.put t with begun := s.begun + 1 }).seamProduce l i h k n

/-- A seam access controller that consumes a stream takes the tiles that have come; where they go is not stated (DESIGN CHOICE, LOG 9). -/
def Device.seamConsume (l i : Nat) (h : Half) (k : Nat) : Nat → Device → Device
  | 0, d => d
  | n + 1, d =>
    if ((d.lode l).stream i).data = 0 then d
    else match d.draw h k seamCost with
      | (false, d) => d
      | (true, d) => (d.modStream l i fun s => s.take 1).seamConsume l i h k n

/-- The access controllers at both ends of a stream act. -/
def Device.serveSeam (d : Device) (l i : Nat) : Device :=
  let x := d.lode l
  let s := x.stream i
  if !x.stepping then d
  else
    let act (e : W16) (f : Nat → Nat → Half → Nat → Nat → Device → Device) (d : Device) : Device :=
      if endType e = 2 then (f l i (endOn e) (28 + endIndex e) 256 d).restSeam (endOn e) (endIndex e) else d
    act s.consumer Device.seamConsume (act s.producer Device.seamProduce d)

/-- Every access controller of a lode acts. -/
def Device.serveSeams (d : Device) (l : Nat) : Device := d.each (d.lode l).streamNumbers fun d i => d.serveSeam l i

/-! ## A bay that leaves service (R232, R374, R376) -/

/-- A bay is isolated: its buffer is lost, the tallies of its level return to its pool, it is recorded, and the host is told. -/
def Device.isolateBay (d : Device) (k kind : Nat) : Device :=
  let b := d.bay k
  if b.isolated ∨ b.retired then d
  else
    let h := bayHalf k
    let d := d.setBay k { b with isolated := true, cause := kind, buffer := [], firing := false, outTiles := [] }
    let cap := min (d.gust h (k % 28)) (d.budget h (k % 28))
    let d := d.modSpender h (k % 28) fun s => { s with pool := min (s.pool + s.level) cap, level := 0, need := none, lull := none }
    let d := { d with
      power := { d.power with retiredBays := addOnce k d.power.retiredBays }
      service := { d.service with retireDue := true } }
    d.eventFrom h 0x0007 k 0 0

/-- A report of a bay, with its PERR bit (R233). -/
def Device.bayReport (d : Device) (k kind bitNo detail : Nat) (injected : Bool := false) : Device :=
  (d.perr .a (bayP k) (2 ^ bitNo)).report (bayHalf k)
    { unitReport (0x30 + k % 28) kind (bayP k) 0 detail with injected }

/-! ## Firing an op (R185, R187, R214, R222) -/

/-- The op a bay comes to next: lode slot and op word. -/
def Device.currentOp (d : Device) (k : Nat) : Option (Nat × OpWord) :=
  let b := d.bay k
  match b.slot with
  | none => none
  | some l => ((d.lode l).programs.find? (·.1 == b.prog)).bind fun g => (g.2.ops[b.op]?).map fun o => (l, o)

/-- Tiles an op reads of its stream A. -/
def OpWord.reads (o : OpWord) (x : Lode) : Nat :=
  if o.operation = 0x1C then cvtReads o.inFmt o.outFmt
  else if o.operation = 0x20 then logitTiles o.inFmt x.vocab (x.stream o.a.toNat).depth
  else 1

/-- The input streams of an op with the tiles it reads of each. -/
def OpWord.inputs (o : OpWord) (x : Lode) : List (Nat × Nat) :=
  (if o.a = 0xFFFF#16 then [] else [(o.a.toNat, o.reads x)]) ++ (if o.b = 0xFFFF#16 then [] else [(o.b.toNat, 1)])

/-- A data tally is held for every tile the op reads. -/
def Lode.hasData (x : Lode) (o : OpWord) : Bool :=
  let ins := o.inputs x
  ins.all fun e => decide (((ins.filter (·.1 == e.1)).map (·.2)).sum ≤ (x.stream e.1).data)

/-- A space tally is held for the output stream. -/
def Lode.hasSpace (x : Lode) (o : OpWord) : Bool := o.out == 0xFFFF#16 || decide (0 < (x.stream o.out.toNat).space)

/-- The tiles of one input, or a free tile where the op names none. -/
def Lode.inputTiles (x : Lode) (i : W16) (skip n : Nat) : List Tile :=
  if i = 0xFFFF#16 then [looseTile 0xFFFF] else ((x.stream i.toNat).tiles.drop skip).take n

/-- The format of B: the one its tensor has when both are 8-bit floats, else the op's (R206; DESIGN CHOICE, LOG 8). -/
def Lode.formatB (x : Lode) (o : OpWord) : Nat :=
  match x.tensorOf (x.stream o.b.toNat) with
  | some t => if (o.inFmt = 1 ∨ o.inFmt = 2) ∧ (t.format = 1 ∨ t.format = 2) then t.format else o.inFmt
  | none => o.inFmt

/-- The bytes of an accumulator block. -/
def Bay.accBlock (b : Bay) (o : OpWord) (n : Nat) : List Byte := getBytes b.buffer (o.acc.toNat * 16384) n

/-- What an op computes from its tiles: the accumulator block after it, where it writes one, and the tiles it writes. -/
def opResult (x : Lode) (b : Bay) (o : OpWord) (ta tb : List Tile) : Option (List Byte) × List Tile :=
  let a := ta.headD []
  let bb := tb.headD []
  let n := o.operation
  if n = 1 then
    let acc := if bit o.param 0 then List.replicate 16384 0#8 else b.accBlock o 16384
    (some (mma o.inFmt (x.formatB o) acc a bb), [])
  else if n = 2 then (none, accOut o.inFmt o.outFmt (b.accBlock o 16384))
  else if n = 0x1A ∨ n = 0x1B then (none, [reduceTile n o.inFmt a])
  else if n = 0x1C then (none, cvtTiles o.inFmt o.outFmt ta)
  else (none, [vectorTile n o.inFmt o.param a bb (b.accBlock o 4096)])

/-- The request of a batch row. -/
def Device.rowRequest (d : Device) (l row : Nat) : Option Request :=
  (d.lode l).rows[row]?.bind fun r => d.findRequest r.queue r.tag

/-- SAMPLE: a token for a batch row goes to Overman (R222, R284). -/
def Device.sampleRow (d : Device) (l : Nat) (o : OpWord) (ta : List Tile) : Device :=
  let row := fld o.param 15 0
  match d.rowRequest l row with
  | none => d
  | some r =>
    let t := sampleToken r (logitsOf o.inFmt (d.lode l).vocab ta)
    d.modLode l fun x => { x with sampled := x.sampled ++ [(row, t.map w32)] }

/-- The op in progress retires: the next op of the program follows, or the program's step is done (R215). -/
def Device.retireOp (d : Device) (k : Nat) (o : OpWord) (count : Nat) : Device :=
  let b := d.bay k
  let last := o.last || decide (count ≤ b.op + 1)
  let d := d.setBay k { b with firing := false, outTiles := [], op := b.op + 1, done := last, retiredAt := d.tb (bayHalf k) }
  if last then d.releaseTo (bayHalf k) (k % 28) 0 else d

/-- Ops of the program a bay runs. -/
def Device.opCount (d : Device) (k l : Nat) : Nat :=
  (((d.lode l).programs.find? (·.1 == (d.bay k).prog)).map fun g => g.2.ops.length).getD 0

/-- The tiles of a fired op go to its output stream as space allows; after the last, the op retires. -/
def Device.drainBay (d : Device) (k l : Nat) (o : OpWord) : Device :=
  let b := d.bay k
  let i := o.out.toNat
  let n := min ((d.lode l).stream i).space b.outTiles.length
  let d := d.modStream l i fun s => (b.outTiles.take n).foldl Stream.put s
  let rest := b.outTiles.drop n
  let d := d.setBay k { b with outTiles := rest }
  let d := d.serveSeam l i
  if rest.isEmpty then d.retireOp k o (d.opCount k l) else d

/-- The outcome of the buffer's ECC check as the op fires; an armed injection inverts a clean one (R232, R335). -/
def Device.bayEcc (d : Device) (k : Nat) (e : Ecc) : Ecc × Bool × Device :=
  let h := bayHalf k
  match e, d.armedFor h (0x30 + k % 28) 0 with
  | .clean, some mode => (if mode then .corrected else .uncorrectable, true, d.consumeInjection h)
  | e, _ => (e, false, d)

/-- A fired op reads its tiles, computes, and begins to write (R206, R207, R213, R222). -/
def Device.computeOp (d : Device) (k l : Nat) (o : OpWord) : Device :=
  let x := d.lode l
  let n := o.reads x
  let ta := x.inputTiles o.a 0 n
  let tb := x.inputTiles o.b (if o.a = o.b then n else 0) 1
  let d := d.each (o.inputs x) fun d (i, n) => (d.modStream l i fun s => s.take n).serveSeam l i
  if o.operation = 0x20 then (d.sampleRow l o ta).retireOp k o (d.opCount k l)
  else
    let b := d.bay k
    let (acc, outs) := opResult x b o ta tb
    let buffer := match acc with
      | none => b.buffer
      | some bs => putBytes b.buffer (o.acc.toNat * 16384) bs
    let outs := if o.out = 0xFFFF#16 then [] else outs
    let d := d.setBay k { b with buffer, firing := true, outTiles := outs }
    d.drainBay k l o

/-- Engine cycles of an op (R206, R207; DEDUCED, LOG 21): what THROT counts a share of. -/
def opCycles (o : OpWord) : Nat := if o.operation = 1 then (if o.inFmt < 3 then 64 else 128) else 16

/-- An op that holds all its tallies fires; ECC decides what its bay does with the result. -/
def Device.fireOp (d : Device) (k l : Nat) (o : OpWord) (rate : Nat) (e : Ecc) : Device :=
  let (e, inj, d) := d.bayEcc k e
  let held := opCycles o * (64 - rate) / rate
  let d := d.modBay k fun b => { b with ops := b.ops + 1#32, throt := w32 (satNat (2 ^ 32 - 1) (b.throt.toNat + held)) }
  match e with
  | .clean => d.computeOp k l o
  | .corrected =>
    let d := d.modBay k fun b => { b with corrected := satInc b.corrected }
    (d.report (bayHalf k) { unitReport (0x30 + k % 28) 0x49 (bayP k) with injected := inj }).computeOp k l o
  | .uncorrectable =>
    let d := d.modBay k fun b => { b with uncorrect := satInc b.uncorrect }
    (d.bayReport k 0x4A 0 0 inj).isolateBay k 0x4A

/-- Cost of a lode's op class (R221). -/
def Lode.costOf (x : Lode) (o : OpWord) : Nat := tget 0 x.costs o.cls.toNat

/-- A bay tries the op of a given operation: it fires under the three tally conditions, or waits and counts what it waits
for (R214, R233). -/
def Device.runOp (d : Device) (k code : Nat) (e : Ecc) : Device :=
  match d.currentOp k with
  | none => d
  | some (l, o) =>
    let b := d.bay k
    let x := d.lode l
    if o.operation ≠ code ∨ b.done ∨ !d.bayUsable k ∨ !x.stepping then d
    else if b.firing then d.drainBay k l o
    else
      let data := x.hasData o
      let space := x.hasSpace o
      if !data ∧ !space then d
      else if !data then d.modBay k fun b => { b with waitD := satInc b.waitD }
      else if !space then d.modBay k fun b => { b with waitS := satInc b.waitS }
      else
        let h := bayHalf k
        let cost := d.bayCost h (k % 28) (x.costOf o)
        let rate := d.issueRate h (k % 28) cost
        match d.draw h (k % 28) cost with
        | (true, d) => d.fireOp k l o rate e
        | (false, d) => d.modBay k fun b => { b with waitP := satInc b.waitP }

def execOpMma (k : Fin 56) (e : Ecc) (s : State) : Host.Outcome State Fault Refusal := runOn s fun d => d.runOp k 0x01 e
def execOpAccout (k : Fin 56) (e : Ecc) (s : State) : Host.Outcome State Fault Refusal := runOn s fun d => d.runOp k 0x02 e
def execOpAdd (k : Fin 56) (e : Ecc) (s : State) : Host.Outcome State Fault Refusal := runOn s fun d => d.runOp k 0x10 e
def execOpMul (k : Fin 56) (e : Ecc) (s : State) : Host.Outcome State Fault Refusal := runOn s fun d => d.runOp k 0x11 e
def execOpFma (k : Fin 56) (e : Ecc) (s : State) : Host.Outcome State Fault Refusal := runOn s fun d => d.runOp k 0x12 e
def execOpMin (k : Fin 56) (e : Ecc) (s : State) : Host.Outcome State Fault Refusal := runOn s fun d => d.runOp k 0x13 e
def execOpMax (k : Fin 56) (e : Ecc) (s : State) : Host.Outcome State Fault Refusal := runOn s fun d => d.runOp k 0x14 e
def execOpCmp (k : Fin 56) (e : Ecc) (s : State) : Host.Outcome State Fault Refusal := runOn s fun d => d.runOp k 0x15 e
def execOpSel (k : Fin 56) (e : Ecc) (s : State) : Host.Outcome State Fault Refusal := runOn s fun d => d.runOp k 0x16 e
def execOpExp (k : Fin 56) (e : Ecc) (s : State) : Host.Outcome State Fault Refusal := runOn s fun d => d.runOp k 0x17 e
def execOpRecip (k : Fin 56) (e : Ecc) (s : State) : Host.Outcome State Fault Refusal := runOn s fun d => d.runOp k 0x18 e
def execOpRsqrt (k : Fin 56) (e : Ecc) (s : State) : Host.Outcome State Fault Refusal := runOn s fun d => d.runOp k 0x19 e
def execOpRowsum (k : Fin 56) (e : Ecc) (s : State) : Host.Outcome State Fault Refusal := runOn s fun d => d.runOp k 0x1A e
def execOpRowmax (k : Fin 56) (e : Ecc) (s : State) : Host.Outcome State Fault Refusal := runOn s fun d => d.runOp k 0x1B e
def execOpCvt (k : Fin 56) (e : Ecc) (s : State) : Host.Outcome State Fault Refusal := runOn s fun d => d.runOp k 0x1C e
def execOpSample (k : Fin 56) (e : Ecc) (s : State) : Host.Outcome State Fault Refusal := runOn s fun d => d.runOp k 0x20 e

/-! ## Tally messages (R213) -/

/-- A space tally has reached its producer: a bay that is writing goes on. -/
def Device.producerWakes (d : Device) (l i : Nat) : Device :=
  let s := (d.lode l).stream i
  if endType s.producer ≠ 0 then d.serveSeam l i
  else match (d.lode l).bayOf (endIndex s.producer) with
    | none => d
    | some k => match d.currentOp k with
      | none => d
      | some (m, o) => if m = l ∧ (d.bay k).firing ∧ o.out.toNat = i then d.drainBay k l o else d

/-- The oldest message of a kind arrives at its holder. -/
def Device.tallyMessage (d : Device) (l i : Nat) (kind : TallyKind) : Device :=
  let s := (d.lode l).stream i
  match kind with
  | .space =>
    if s.spaceMsgs = 0 then d
    else (d.modStream l i fun s => { s with spaceMsgs := s.spaceMsgs - 1, space := s.space + 1 }).producerWakes l i
  | .data =>
    if s.dataMsgs = 0 then d
    else (d.modStream l i fun s => { s with dataMsgs := s.dataMsgs - 1, data := s.data + 1 }).serveSeam l i

def execTallyMessage (slot : Fin 64) (stream : W16) (kind : TallyKind) (s : State) : Host.Outcome State Fault Refusal :=
  runOn s fun d => d.tallyMessage slot stream.toNat kind

/-! ## Steps (R215, R222, R276-R280, R286, R376) -/

/-- Movers of a half in service. -/
def Device.moversOf (d : Device) (h : Half) : List Nat :=
  (halfMovers h).filter fun m => !(d.mover m).isolated

/-- A tile of the stream goes from a tile mover of one half to a tile mover of the other, which hands it to the consumer (R212). -/
def Stream.relays (s : Stream) : Bool := endType s.producer == 1 && endType s.consumer != 1 && endHalf s.producer != endHalf s.consumer

/-- Halves whose movers some stream of a lode needs. -/
def Lode.moverHalves (x : Lode) : List Half :=
  [Half.a, .b].filter fun h => x.streams.any fun e =>
    (endType e.2.producer == 1 && endOn e.2.producer == h)
      || ((endType e.2.consumer == 1 || e.2.relays) && endOn e.2.consumer == h)

/-- HOLD of a bay (R233). -/
def Device.bayHeld (d : Device) (k : Nat) : Bool := bit (d.reg .a (bayP k) 0x40) 0

/-- A lode can start a step: it is at a step boundary, its halves' CORE and SEAM are ON, and a spanning one has the
crosscut (R230, R370). A slot that is UNLOADING only completes a repeat (R231). -/
def Device.startable (d : Device) (l : Nat) : Bool :=
  let x := d.lode l
  (x.st == .resident || (x.st == .unloading && x.repeating)) && !x.stepping
  && (if x.repeating then x.rows.any fun r => (d.findRequest r.queue r.tag).isSome else !(d.stepBatch l).isEmpty)
  && x.halves.all (fun h => d.isOn (corePart h) && d.isOn (seamPart h))
  && (!x.spans || (!d.apart && d.crosscutUp))

/-- The tier of a request's context: 1 seam, 2 DRAM. -/
def Device.contextOf (d : Device) (r : Request) : Nat :=
  match d.findSession r.session with
  | none => r.tier
  | some s => if s.inSeam then 1 else 2

/-- The half a request's context lies on. -/
def Device.contextSide (d : Device) (r : Request) : Half := ((d.findSession r.session).map (·.half)).getD r.half

/-- The contexts in DRAM of a batch, as tiles to carry in a step by row: each context whole, once a step (R229; how much of it a step
carries is not stated; DESIGN CHOICE, LOG 9). -/
def Device.carryOf (d : Device) (l : Nat) (rows : List BatchRow) : Tab Nat :=
  rows.zipIdx.foldl (fun t (w, i) =>
    if (d.findRequest w.queue w.tag).any fun r => d.contextOf r == 2 then tset 0 i (d.lode l).ctxTiles t else t) []

/-- The bays of a lode begin its programs. -/
def Device.launch (d : Device) (l : Nat) : Device :=
  let x := d.lode l
  let d := d.each x.programs fun d (p, g) =>
    match g.bay with
    | none => d
    | some k => d.modBay k fun b => { b with
        slot := some l, prog := p, op := 0, done := false, firing := false, outTiles := [], retiredAt := d.tb (bayHalf k) }
  let rows := if x.repeating then x.rows else
    let pol := tget {} d.service.lodePolicy l
    let batch := d.stepBatch l
    (batch.zip (stepPlan pol pol.stepTok batch)).map fun (r, n) => { queue := r.queue, tag := r.tag, tokens := n }
  let movers : Tab (List Nat) := [Half.a, .b].foldl (fun t h => tset [] h.idx (d.moversOf h) t) []
  let x := x.freshStreams
  let streams := tmap {} (fun _ s => { s with moved := d.tb (endOn s.consumer) }) x.streams
  let d := d.setLode l { x with stepping := true, rows, sampled := [], movers, streams, carry := d.carryOf l rows }
  let d := { d with compute := { d.compute with lastStep := l } }
  d.serveSeams l

/-- Start a step, unless a bay is held or busy; without a bay or a mover the lode's requests end (R232, R376, file 10). -/
def Device.startStep (d : Device) (l : Nat) : Device :=
  if !d.startable l then d
  else
    let x := d.lode l
    let d := d.setLode l { x with programs := d.assignBays x.programs }
    let x := d.lode l
    if x.programs.any (·.2.bay.isNone) then d.endRequests (·.lode == l) 0x0020
    else if x.moverHalves.any fun h => (d.moversOf h).isEmpty then
      d.endRequests (fun r => r.lode == l && r.st == .running) 0x0020
    else if x.bays.any fun k => d.bayHeld k || (d.bay k).slot.isSome then d
    else d.launch l

/-- The highest class of a lode's WAITING and RUNNING requests. -/
def Device.topClass (d : Device) (l : Nat) : Nat :=
  ((d.service.requests.filter fun r => r.lode == l && r.st != .input).map (·.cls)).foldl min 4

/-- Lodes start their steps in the order of R280. -/
def Device.startSteps (d : Device) : Device :=
  let turn (l : Nat) : Nat := (l + 64 - (d.compute.lastStep + 1) % 64) % 64
  let before (l m : Nat) : Bool :=
    decide (d.topClass l < d.topClass m) || (d.topClass l == d.topClass m && decide (turn l < turn m))
  d.each (sortBy before (d.usedSlots.filter d.startable)) Device.startStep

/-- Every program of the lode has retired its last op, and every stream holds its D space tallies (R215). -/
def Device.stepComplete (d : Device) (l : Nat) : Bool :=
  let x := d.lode l
  x.stepping && x.programs.all (fun e => e.2.bay.any fun k => (d.bay k).slot == some l && (d.bay k).done)
  && x.streams.all fun e => e.2.space == e.2.depth

/-- Context tokens a request's next step would reach (R276, R278). -/
def Device.contextAfter (d : Device) (pol : Policy) (r : Request) : Nat :=
  let base := ((d.findSession r.session).map (·.context.length)).getD 0
  let n := memberTokens pol r
  let out := if r.processed + n < r.input.length then 0 else 1
  if r.processed < r.input.length then base + r.processed + n + r.output.length + out
  else base + r.processed + r.output.length + 1

/-- Requests whose next step would exceed the context token capacity end (R276). -/
def Device.endFull (d : Device) (l : Nat) : Device :=
  let pol := tget {} d.service.lodePolicy l
  d.each (d.batch l) fun d r =>
    if (d.lode l).ctxCap < d.contextAfter pol r then d.endRequest r 0x0010 (d.contextOf r) else d

/-- A request after a step that ends at an instant: tokens processed, and the token sampled for its row. -/
def Request.afterStep (r : Request) (n : Nat) (at_ : W64) (sampled : Option W32) : Request :=
  let processed := if r.processed < r.input.length then r.processed + n else r.processed
  match sampled with
  | some t =>
    if 0 < n ∧ r.input.length ≤ processed then
      let output := r.output ++ [t]
      { r with processed, output, produced := at_, finished := r.stops.contains t || decide (r.maxNew ≤ output.length) }
    else { r with processed }
  | none => { r with processed }

/-- Action 1 of R279 for one batch row. -/
def Device.appendRow (l : Nat) (d : Device) (row : BatchRow × Nat) : Device :=
  match d.findRequest row.1.queue row.1.tag with
  | none => d
  | some r =>
    let at_ := d.stamp r.queue
    match ((d.lode l).sampled.find? (·.1 == row.2)).map (·.2) with
    | some none =>
      if r.input.length ≤ r.processed + row.1.tokens then d.endRequest r 0x0020 0 else d.putRequest (r.afterStep row.1.tokens at_ none)
    | t =>
      let r' := r.afterStep row.1.tokens at_ (t.bind id)
      let d := d.putRequest r'
      if r'.output.length = r.output.length then d
      else
        let v := d.service
        let d := { d with service := { v with tokens := tset 0#32 r.cls (tget 0#32 v.tokens r.cls + 1#32) v.tokens } }
        if r'.stream && !r'.finished && !r'.marked then
          let d := d.deliver r' false
          d.putRequest { r' with delivered := r'.output.length, answered := true }
        else d

/-- Action 1 of R279 at the end of a step. -/
def Device.endStep (d : Device) (l : Nat) : Device :=
  let bays := (d.lode l).bays
  let d := d.each bays fun d k => d.modBay k fun b => { b with steps := b.steps + 1#32 }
  let d := d.each (d.lode l).rows.zipIdx (Device.appendRow l)
  (d.idleBays l).modLode l fun x => { x.freshStreams with stepping := false, repeating := false, rows := [], sampled := [] }

/-- Action 2 of R279: the requests that completed, or that a cancellation, a close or an unload marked, end. -/
def Device.endMarked (d : Device) (l : Nat) : Device :=
  d.each (d.batch l) fun d r =>
    if r.finished then d.finishRequest r else if r.marked then d.endRequest r 0x0002 0 else d

/-- A step boundary of a lode: the actions of R279 in order, and the next step. -/
def Device.stepBoundary (d : Device) (l : Nat) : Device :=
  let x := d.lode l
  if (x.st ≠ .resident ∧ x.st ≠ .unloading) ∨ (x.stepping ∧ !d.stepComplete l) then d
  else
    let d := if x.stepping then d.endStep l else d
    -- a step that is to be repeated completes first (R288)
    let d := if (d.lode l).repeating then d else d.endMarked l
    let d := if (d.batch l).isEmpty then d.modLode l fun x => { x with repeating := false } else d
    -- under the safe state no further step starts, so nothing that is left can complete (R332)
    let d := if x.halves.any (fun h => (d.canary h).safe) && !(d.lode l).repeating then d.endRequests (·.lode == l) 0x0020 else d
    if (d.lode l).repeating then d.startSteps
    else if x.st = .unloading then (d.finishUnload l).startSteps
    else
      let d := { d with service := { d.service with lodePolicy := tset {} l d.service.policy d.service.lodePolicy } }
      ((((d.endFull l).admitWaiting l).endFull l).startSteps)

def execStepBoundary (slot : Fin 64) (s : State) : Host.Outcome State Fault Refusal := runOn s fun d => d.stepBoundary slot

/-- A step is repeated (R376): on a second failure its requests end; without a free bay the lode is discarded. -/
def Device.repeatStep (d : Device) (l kind : Nat) : Device :=
  let x := d.lode l
  if !x.stepping then d
  else if x.repeating then
    ((d.abandonStep l).modLode l fun x => { x with repeating := false, rows := [] }).endRequests
      (fun r => r.lode == l && r.st == .running) 0x0020
  else
    let d := d.abandonStep l
    let progs := d.assignBays x.programs
    if progs.any (·.2.bay.isNone) then d.evictLode x.firstHalf l kind 0x0020
    else
      let d := d.modLode l fun x => { x with programs := progs, repeating := true }
      let d := d.modRequests fun rs => rs.map fun r =>
        if x.rows.any fun w => r.is w.queue w.tag then { r with retried := true } else r
      d.startSteps

/-- After a bay of the lode's step has left service (R376). -/
def Device.stepRepeat (d : Device) (l lost : Nat) : Device :=
  let b := d.bay lost
  if (b.isolated ∨ b.retired) ∧ (d.lode l).bays.contains lost then d.repeatStep l b.cause else d

def execStepRepeat (slot : Fin 64) (lost : Fin 56) (s : State) : Host.Outcome State Fault Refusal :=
  runOn s fun d => d.stepRepeat slot lost

/-! ## Memory errors (R232, R234, R235) -/

/-- Number of the counts of a half's seam memory, and of a DRAM stack. -/
def memIndex (h : Half) (seam : Bool) (layer : Nat) : Nat := if seam then h.idx else 2 + h.idx * 4 + layer % 4

/-- A report of a memory; the address of the word is not stated by placement, and is free (DESIGN CHOICE, LOG 9). -/
def Device.memReport (d : Device) (h : Half) (seam : Bool) (layer kind : Nat) (cond inj scrub : Bool) : Device :=
  let (lo, d) := d.fresh
  let (hi, d) := d.fresh
  d.report h { unit := (if seam then 0x58 else 0x5C) + layer % 4, kind, addr := lo.toNat + fld hi 15 0 * 2 ^ 32, wide := true
               access := if scrub then 6 else 0, cond, injected := inj }

def Device.countCe (d : Device) (k : Nat) : Device := d.setMem k { d.mem k with ce := satInc (d.mem k).ce }
def Device.countUe (d : Device) (k : Nat) : Device := d.setMem k { d.mem k with ue := satInc (d.mem k).ue }

/-- A corrected word: counted, reported, written back. -/
def Device.memCorrected (d : Device) (h : Half) (seam : Bool) (layer : Nat) (inj scrub : Bool) : Device :=
  (d.countCe (memIndex h seam layer)).memReport h seam layer (if seam then 0x44 else 0x47) false inj scrub

/-- The seam layer or DRAM stack of a word in error: queue buffers lie in layers 0 and 1, the Overman and the tally and plan reserves
in 2 and 3 (R210); the rest lies in a free one. -/
def siteLayer (site : EccSite) (layer : Nat) : Nat :=
  match site with
  | .queueBuffer _ _ => layer % 2
  | .reserve => 2 + layer % 2
  | .context ident _ => Config.wordLayer 2 ident.toNat 0 % 4
  | _ => layer % 4

/-- An uncorrectable word of the tally and plan reserve, in layer 3, may lie in the slot record of one lode; which is not stated
(R210, R313; DESIGN CHOICE, LOG 75). -/
def Device.spoilRecord (d : Device) : Device :=
  let (w, d) := d.fresh
  match d.usedSlots[w.toNat % (d.usedSlots.length + 1)]? with
  | none => d
  | some l => d.modLode l fun x => { x with badRecord := true }

/-- An uncorrectable word, by where it lies. -/
def Device.memError (d : Device) (h : Half) (layer : Nat) (site : EccSite) (inj scrub : Bool) : Device :=
  let layer := siteLayer site layer
  let ue (d : Device) (h : Half) (seam : Bool) (kind : Nat) (cond : Bool) : Device :=
    (d.countUe (memIndex h seam layer)).memReport h seam layer kind cond inj scrub
  match site with
  | .seamTensor slot t =>
    (match (d.lode slot).tensors[t]? with
    | none => d
    | some x =>
      if !x.inSeam then d
      else
        let read := (d.lode slot).streams.any fun e => e.2.tensor == x.ident && decide (0 < e.2.begun)
        let d := ue d x.half true 0x45 false
        if read then d.repeatStep slot 0x45 else d)
  | .homeTensor slot t =>
    (match (d.lode slot).tensors[t]? with
    | none => d
    | some x =>
      if x.inSeam then ue d x.half false 0x48 false
      else (ue d x.half false 0x48 true).evictLode x.half slot 0x48 0x0020)
  | .context ident inSeam =>
    (match d.findSession ident with
    | none => d
    | some s =>
      if s.inSeam ≠ inSeam then d
      else
        let d := ue d s.half inSeam (if inSeam then 0x45 else 0x48) false
        (d.endRequests (fun r => r.session == ident) 0x0020).endSessions fun s => s.ident == ident)
  | .queueBuffer q tag =>
    let d := ue d (queHalf q) true 0x45 false
    d.endRequests (·.is q tag) 0x0020
  | .reserve => ue (if layer = 3 then d.spoilRecord else d) h true 0x46 false

/-- Words of a half's seam memory: 8 GiB in 64-bit words (R210). -/
def seamWords : Nat := 2 ^ 30

/-- The scrub goes on to its next word: a pass visits every word of the half within SCRUB hours, at even intervals, layer after layer
(R210, R234; DESIGN CHOICE, LOG 72). Answers the layer of the word. -/
def Device.scrubNext (d : Device) (h : Half) : Nat × Device :=
  let c := d.mem h.idx
  let period := fld (d.reg .a (memP h.idx) 0x5C) 7 0 * 3600 * 1000 * ms
  let d := d.advanceTo h (c.scrubFrom + BitVec.ofNat 64 ((c.scrubbed + 1) * period / seamWords))
  let last := decide (seamWords ≤ c.scrubbed + 1)
  (c.scrubbed / 2 ^ 28 % 4, d.setMem h.idx { c with
    scrubbed := if last then 0 else c.scrubbed + 1, scrubFrom := if last then d.tb h else c.scrubFrom })

/-- The background scrub reads a seam word of a half (R210). -/
def Device.scrub (d : Device) (h : Half) (r : MemRead) : Device :=
  if !d.isOn (seamPart h) then d
  else
    let (layer, d) := d.scrubNext h
    let armed := (List.range 4).filterMap fun n => (d.armedFor h (0x58 + n) 0).map fun m => (n, m)
    match r, armed with
    | .clean, (n, mode) :: _ =>
      let d := d.consumeInjection h
      -- the word checked is not stated: it is taken to hold nothing of a lode, a context or a reserve (DESIGN CHOICE, LOG 22)
      if mode then d.memCorrected h true n true true
      else (d.countUe (memIndex h true n)).memReport h true n 0x45 false true true
    | .clean, [] => d
    | .corrected seam, _ => if seam then d.memCorrected h true layer false true else d
    | .uncorrectable site, _ => d.memError h layer site false true

def execBackgroundScrub (h : Half) (r : MemRead) (s : State) : Host.Outcome State Fault Refusal :=
  runOn s fun d => d.scrub h r

/-! ## Tile movers (R212, R232) -/

/-- A tile mover serves a stream of a lode: the plan's choice among those in service at the step's start (DESIGN CHOICE, LOG 9). -/
def Device.serves (d : Device) (m l i : Nat) : Bool :=
  let ms := tget [] (d.lode l).movers (moverHalf m).idx
  ms[Config.planMover l i % max 1 ms.length]? == some m

/-- What a tile mover of a half has to do for a stream: the first leg of a stream its movers produce, the second leg of one that has
crossed to it, or a tile of one its movers consume. Where a mover consumes, it needs the data tally alone, and its tile goes
nowhere: the spec gives such a stream no destination (DESIGN CHOICE, LOG 9). -/
inductive Leg where
  | produce | relay | consume
  deriving DecidableEq, Repr

/-- The leg a mover of a half may begin now: with a space tally in hand for one it produces, a tile that has crossed for one it
relays, a data tally for one it consumes (R15, R212). -/
def Stream.leg (s : Stream) (h : Half) : Option Leg :=
  if endType s.producer = 1 ∧ endOn s.producer = h ∧ 0 < s.space ∧ s.begun < s.perStep then some .produce
  else if s.relays ∧ endOn s.consumer = h ∧ !s.relay.isEmpty then some .relay
  else if endType s.consumer = 1 ∧ endOn s.consumer = h ∧ 0 < s.data then some .consume
  else none

/-- The leg a mover of a half has in hand of a stream it has begun. -/
def Stream.legOf (s : Stream) (h : Half) : Leg :=
  if endType s.producer = 1 ∧ endOn s.producer = h then .produce else if s.relays then .relay else .consume

/-- The batch row whose context a mover's work item names (R229). -/
def contextRow (i : Nat) : Option Nat := if i < 0x10000 then none else some (i - 0x10000)

/-- The request of a batch row whose context a mover carries. -/
def Device.carried (d : Device) (l i : Nat) : Option Request := (contextRow i).bind (d.rowRequest l)

/-- The tiles a mover may move, in ascending order: of a lode's streams, then of its batch's contexts in DRAM (R212, R229). -/
def Device.moverWork (d : Device) (m : Nat) : List (Nat × Nat) :=
  let h := moverHalf m
  (d.usedSlots.filter fun l => (d.lode l).stepping).flatMap fun l =>
    let streams := ((d.lode l).streams.filter fun e => (e.2.leg h).isSome).map (·.1)
    let rows := ((d.lode l).carry.map fun e => 0x10000 + e.1).filter fun i => (d.carried l i).any fun r => d.contextSide r == h
    ((streams ++ rows).filter (d.serves m l)).map fun i => (l, i)

/-- A mover takes a stream's tally for the leg it begins. -/
def Stream.begin (s : Stream) (h : Half) : Stream :=
  match s.leg h with
  | some .produce => { s with space := s.space - 1, flight := s.flight + 1, begun := s.begun + 1 }
  | some .consume => { s with data := s.data - 1, flight := s.flight + 1, tiles := s.tiles.drop 1 }
  | _ => s

/-- A mover begins a tile, round robin after the work served last. A read of seam memory draws on the layer's spender (R182, R210);
a tile for the other half goes only while the crosscut is up (R212). -/
def Device.tileMove (d : Device) (m : Nat) : Device :=
  let x := d.mover m
  let h := moverHalf m
  let on := d.isOn (seamPart h)
  if x.isolated ∨ x.moving.isSome ∨ !on then d
  else
    let work := (d.moverWork m).filter fun e => !((d.lode e.1).stream e.2).cross || (!d.apart && d.crosscutUp)
    let beyond_ (e : Nat × Nat) : Bool := decide (x.last.1 < e.1 ∨ (x.last.1 = e.1 ∧ x.last.2 < e.2))
    match (work.filter beyond_ ++ work).head? with
    | none => d
    | some (l, i) =>
      let produces := ((d.lode l).stream i).leg h == some .produce
      let (ok, d) := match if produces then d.moverLayer l i else none with
        | some n => d.draw h (28 + n) seamCost
        | none => (true, d)
      if !ok then d
      else
        let d := d.setMover m { x with moving := some (l, i), last := (l, i) }
        if (contextRow i).isSome then d else d.modStream l i fun s => s.begin h

def execTileMove (m : Fin 16) (s : State) : Host.Outcome State Fault Refusal := runOn s fun d => d.tileMove m

/-- A stream after its mover finished a tile: it goes to its consumer, or across to a mover of the other half (R212, R213). -/
def Stream.ended (s : Stream) (h : Half) (t : Tile) : Stream :=
  match s.legOf h with
  | .produce =>
    if s.relays then { s with relay := s.relay ++ [t] }
    else { s with flight := s.flight - 1, tiles := s.tiles ++ [t], dataMsgs := s.dataMsgs + 1 }
  | .relay => { s with
      flight := s.flight - 1, tiles := s.tiles ++ s.relay.take 1, relay := s.relay.drop 1, dataMsgs := s.dataMsgs + 1 }
  | .consume => { s with flight := s.flight - 1, spaceMsgs := s.spaceMsgs + 1 }

/-- What a mover of a half reads for a work item: where an error in it lies, whether in seam memory, and its layer or stack. -/
def Device.moverSite (d : Device) (h : Half) (l i : Nat) : Option EccSite × Bool × Nat :=
  let y := d.lode l
  let s := y.stream i
  let slot : Fin 64 := Fin.ofNat 64 l
  match d.carried l i with
  | some r => (some (.context r.session false), false, siteLayer (.context r.session false) 0)
  | none =>
    if s.legOf h ≠ .produce then (none, false, 0)
    else match (y.tensorOf s).bind fun t => (y.tensors.findIdx? (·.ident == t.ident)).map fun n => (t, n) with
      | none => (none, false, 0)
      | some (t, n) =>
        (some (if t.inSeam then .seamTensor slot n else .homeTensor slot n), t.inSeam, Config.tileLayer l i % 4)

/-- The ECC outcome of a mover's read: an armed injection inverts a clean one on the tier it reads (R335). -/
def Device.moverRead (d : Device) (h : Half) (site : Option EccSite) (seam : Bool) (layer : Nat) (r : MemRead) :
    MemRead × Bool × Device :=
  match r, site, d.armedFor h ((if seam then 0x58 else 0x5C) + layer % 4) 0 with
  | .clean, some site, some mode => (if mode then .corrected seam else .uncorrectable site, true, d.consumeInjection h)
  | r, _, _ => (r, false, d)

/-- An error that a mover's read found; a working context that no session holds ends with its request (R232, R276). -/
def Device.moverError (d : Device) (h : Half) (l i layer : Nat) (site : EccSite) (inj : Bool) : Device :=
  match site, d.carried l i with
  | .context ident false, some r =>
    if ident = r.session ∧ (d.findSession ident).isNone then
      ((d.countUe (memIndex h false layer)).memReport h false layer 0x48 false inj false).endRequests (·.is r.queue r.tag) 0x0020
    else d.memError h layer site inj false
  | _, _ => d.memError h layer site inj false

/-- A tile move ends: the tile is written, and its tally goes out (R213). -/
def Device.tileMoveDone (d : Device) (m : Nat) (r : MemRead) : Device :=
  let x := d.mover m
  let h := moverHalf m
  match x.moving with
  | none => d
  | some (l, i) =>
    let y := d.lode l
    let s := y.stream i
    let row := contextRow i
    let live := match row with
      | none => s.legOf h == .relay && !s.relay.isEmpty || decide (0 < s.flight)
      | some w => decide (0 < tget 0 y.carry w)
    let layer := if s.legOf h = .produce then d.moverLayer l i else none
    let (site, seam, stack) := d.moverSite h l i
    let rest (d : Device) : Device := match layer with
      | some n => d.restSeam h n
      | none => d
    if !y.stepping ∨ !live then rest (d.setMover m { x with moving := none })
    else
      let d := d.setMover m { x with moving := none, tiles := x.tiles + 1#32 }
      let d := match row with
        | some w => d.modLode l fun y => { y with carry := tset 0 w (tget 0 y.carry w - 1) y.carry }
        | none => d.modStream l i fun t => t.ended h (y.memoryTile i { s with begun := s.begun - 1 })
      let d := rest d
      let (r, inj, d) := d.moverRead h site seam stack r
      match r with
      | .clean => d
      | .corrected seam => d.memCorrected h seam stack inj false
      | .uncorrectable site => d.moverError h l i stack site inj

def execTileMoveDone (m : Fin 16) (r : MemRead) (s : State) : Host.Outcome State Fault Refusal :=
  runOn s fun d => d.tileMoveDone m r

/-- A mover that is isolated returns the tally it holds; a half without a mover ends the steps of its lodes (R232). -/
def Device.isolateMover (d : Device) (m : Nat) : Device :=
  let x := d.mover m
  let h := moverHalf m
  let d := match x.moving with
    | none => d
    | some (l, i) => d.modStream l i fun s =>
        if s.flight = 0 then s
        else match s.legOf h with
          | .produce => { s with flight := s.flight - 1, space := s.space + 1, begun := s.begun - 1 }
          | .relay => s
          | .consume => { s with flight := s.flight - 1, space := s.space + 1 }
  let d := d.setMover m { x with isolated := true, moving := none }
  if !(d.moversOf h).isEmpty then d
  else
    d.each (d.usedSlots.filter fun l => (d.lode l).stepping && (d.lode l).halves.contains h) fun d l =>
      ((d.abandonStep l).modLode l fun x => { x with repeating := false, rows := [] }).endRequests
        (fun r => r.lode == l && r.st == .running) 0x0020

/-- A tile mover's protocol or timeout fault. -/
def Device.tmFault (d : Device) (m : Nat) : Device :=
  if (d.mover m).isolated then d
  else
    let h := moverHalf m
    (d.report h (unitReport (0x50 + m % 8) 0x4D (memP (10 + h.idx)) (0x40 + 4 * (m % 8)))).isolateMover m

def execTmFault (m : Fin 16) (s : State) : Host.Outcome State Fault Refusal := runOn s fun d => d.tmFault m

/-! ## Stalls, lockups, HOLD, the pools' refill (R183, R216, R232, R233) -/

/-- The bay that reports a stream: its consumer's, or its producer's where the consumer is no bay (DEDUCED, LOG 21). -/
def Lode.stallBay (x : Lode) (s : Stream) : Option Nat :=
  if endType s.consumer = 0 then x.bayOf (endIndex s.consumer)
  else if endType s.producer = 0 then x.bayOf (endIndex s.producer)
  else x.bays.head?

/-- A stream without tally movement for STALL of the reporting bay, while the step is not complete; time passes to that deadline
(R216; DESIGN CHOICE, LOG 2). -/
def Device.tallyStall (d : Device) (l i : Nat) : Device :=
  let x := d.lode l
  if !x.stepping ∨ d.stepComplete l ∨ !(x.streamNumbers.contains i) then d
  else match x.stallBay (x.stream i) with
    | none => d
    | some k =>
      let s := x.stream i
      let limit := fld (d.reg .a (bayP k) 0x68) 15 0 * ms
      (d.advanceTo (endOn s.consumer) (s.moved + BitVec.ofNat 64 limit)).bayReport k 0x4C 2 i

def execTallyStall (slot : Fin 64) (stream : W16) (s : State) : Host.Outcome State Fault Refusal :=
  runOn s fun d => d.tallyStall slot stream.toNat

/-- The op a bay has come to holds all its tallies. -/
def Device.opHolds (d : Device) (k : Nat) : Bool :=
  match d.currentOp k with
  | none => false
  | some (l, o) =>
    let b := d.bay k
    let x := d.lode l
    let h := bayHalf k
    let cost := d.bayCost h (k % 28) (x.costOf o)
    !b.done && (b.firing || (x.hasData o && x.hasSpace o
      && decide (d.unitLevel h (k % 28) cost ≤ ((d.gov h).spender (k % 28)).level)))

/-- The instant a bay's lockup limit runs out: WDOG units of 1,024 core cycles after it last retired an op (R233). -/
def Device.lockupAt (d : Device) (k : Nat) : W64 :=
  let f := codeMhz (d.gov (bayHalf k)).active
  (d.bay k).retiredAt + BitVec.ofNat 64 ((fld (d.reg .a (bayP k) 0x64) 15 0 * 1024 * 100 + f - 1) / f)

/-- No op retired for WDOG while one holds all its tallies; time passes to that limit (R232; DESIGN CHOICE, LOG 2). -/
def Device.bayLockup (d : Device) (k : Nat) : Device :=
  if d.bayUsable k ∧ d.opHolds k then ((d.advanceTo (bayHalf k) (d.lockupAt k)).bayReport k 0x4B 1 0).isolateBay k 0x4B else d

def execBayLockup (k : Fin 56) (s : State) : Host.Outcome State Fault Refusal := runOn s fun d => d.bayLockup k

/-- A write of CTL: HOLD stops the bay at its next step boundary, and 0 lets it go on at one. -/
def Device.bayControl (d : Device) (k : Nat) (v : W32) : Bool × Device := (true, d.setReg .a (bayP k) 0x40 (v &&& 1#32))

def execBayHold (m : Master) (k : Fin 56) (s : State) : Host.Outcome State Fault Refusal :=
  runOn s fun d => d.guarded m (bayP k) 0x40 1#32 fun d => d.bayControl k 1#32

/-- One AONCLK cycle of a half's pools; seam accesses that waited for power go on. -/
def Device.poolRefill (d : Device) (h : Half) : Device :=
  let d := d.refillCycle h
  let d := d.each (d.usedSlots.filter fun l => (d.lode l).stepping) Device.serveSeams
  d.each (List.range 4) fun d n => d.restSeam h n

def execPoolRefill (h : Half) (s : State) : Host.Outcome State Fault Refusal := runOn s fun d => d.poolRefill h

end Sys2Proof.Machine
end

