-- ==== Sys2Proof/Machine/CanaryFam.lean ====
section
/-! DEFINITION. Canary: reports, captures, notices, reactions, the safe state, release and injection (file 14). -/

namespace Sys2Proof.Machine

/-! ## Fields of a message (R321) -/

def msgUnit (w : W64) : Nat := w.toNat / 2 ^ 53 % 1024
def msgKind (w : W64) : Nat := w.toNat / 2 ^ 46 % 128
def msgAddr (w : W64) : Nat := w.toNat / 2 ^ 14 % 2 ^ 32
def msgDetail (w : W64) : Nat := w.toNat % 2 ^ 13

/-- Word 1 is the complement of word 0 [63:32] (R323). -/
def messageChecks (m : CanMsg) : Bool := m.word1 == ~~~BitVec.ofNat 32 (m.word0.toNat / 2 ^ 32)

/-- A message that fails its check, or names no kind, is handled as CAN_MSG_CMPL of Canary's own (R323). -/
def asCmpl (m : CanMsg) (h : Half) (injected : Bool) : CanMsg :=
  ({ unit := 0x6F, kind := 0x78, addr := msgAddr m.word0, detail := msgKind m.word0, injected } : Report).message h

/-- The class in force for a kind: KCLASS, and for the two conditional kinds the higher class where the condition holds
(R329, R330). -/
def condClass (kind : Nat) (cond : Bool) : Nat :=
  if !cond then 0 else if kind = 0x1C then 3 else if kind = 0x48 then 2 else 0

def Device.classOf (d : Device) (h : Half) (kind : Nat) (cond : Bool) : Nat :=
  let k := d.cp .a (canP h) (0x80 + 4 * (kind / 8)) / 4 ^ (kind % 8) % 4
  max k (condClass kind cond)

/-! ## The safe state (R332) -/

/-- HALTPOL as a half holds it: CAN[1] mirrors CAN[0] (R337). -/
def Device.haltPol (d : Device) (h : Half) : Nat := d.cp .a (canP h) 0x64

/-- Steps 1 to 3 and 5 on one half: minimum budget, transactions aborted, HOLD on every bay, a pending frequency change
dropped, and requests that wait for a step ended. -/
def Device.enterSafe (d : Device) (h : Half) : Device :=
  let c := d.canary h
  if c.safe then d
  else
    let d := d.setCanary h { c with safe := true, safeAt := d.tb h, domainsDone := false }
    let d := d.modGov h fun g => { g with minimum := true, locking := none, waiting := none, waitSlew := none }
    let d := d.abortSlots (·.touches h) rHalt
    let d := d.each (halfBays h) fun d k => d.setReg .a (bayP k) 0x40 (d.reg .a (bayP k) 0x40 ||| 1#32)
    let ctl := d.reg .a (canP h) 0x60
    let d := if bit ctl 2 then d.postHalt h (BitVec.ofNat 8 (fld ctl 15 8)) else d
    if !d.anyServing then d
    else
      d.endRequests (fun r =>
        let x := d.lode r.lode
        x.halves.contains h && !x.stepping && !x.repeating) 0x0020

/-- Every bay of a half has stopped: none is in a step. -/
def Device.baysStopped (d : Device) (h : Half) : Bool := (halfBays h).all fun k => (d.bay k).slot.isNone

/-- Step 4: the domains act as HALTPOL states, through the power-down of R89. -/
def Device.safeDomains (d : Device) (h : Half) : Device :=
  let c := d.canary h
  if !c.safe ∨ c.domainsDone ∨ !d.baysStopped h then d
  else
    let kind := (c.held.map fun r => r.kind.toNat).getD 0
    let d := d.setCanary h { c with domainsDone := true }
    let pol := d.haltPol h
    d.each ((List.range 7).filter fun i => (domainParts i).any fun k => partHalf k == h) fun d i =>
      d.each ((domainParts i).filter fun k => partHalf k == h) fun d k =>
        match pol / 4 ^ i % 4 with
        | 1 => d.partOff k kind
        | 2 => if (i = 2 ∨ i = 3) ∧ (d.part k).st = .on then d.startDown k true else d
        | _ => d

/-- The power-downs of step 4 have ended. -/
def Device.safeDone (d : Device) (h : Half) : Bool :=
  (d.canary h).domainsDone && (halfParts h).all fun k => !(d.part k).st.sequencing

/-- Step 6: with HALTPOL.ESC a Deputy starts a warm reset, when step 4 is complete or 100 ms after the report. A half whose
deputy core has stopped leaves it to the other one, over a live bell line. -/
def Device.escalate (d : Device) (h : Half) : Device :=
  let c := d.canary h
  let able := tget false d.deputy.running h.idx || (d.bellUp && tget false d.deputy.running h.other.idx)
  if !c.safe ∨ !(d.haltPol h).testBit 14 ∨ !able then d
  else
    let d := if d.safeDone h then d else d.advanceTo h (c.safeAt + BitVec.ofNat 64 (100 * ms))
    d.warmReset 4

def execHaltEscalation (h : Half) (s : State) : Host.Outcome State Fault Refusal := runOn s fun d => d.escalate h

/-! ## Reactions (R331) -/

/-- Isolation of a source whose kind KCLASS raised to CONTAIN; units that R322 does not mark are left as they are. -/
def Device.isolateUnit (d : Device) (h : Half) (unit kind : Nat) : Device :=
  if unit < 0x24 then
    let n := h.idx * 36 + unit
    let st := (d.cluster n).st
    if st = .isolated ∨ st = .retired then d
    else (d.lostCluster n .isolated kind (reportCell n kind)).modCluster n fun x => { x with
      cells := (List.range 8).foldl (fun t c => if (x.cell c).st = .latched then t else tset {} c { x.cell c with st := .stopped } t) x.cells }
  else if 0x30 ≤ unit ∧ unit < 0x4C then d.isolateBay (h.idx * 28 + (unit - 0x30)) kind
  else if 0x50 ≤ unit ∧ unit < 0x58 then d.isolateMover (h.idx * 8 + (unit - 0x50))
  else if 0x60 ≤ unit ∧ unit < 0x64 then
    { d with power := { d.power with isolatedCores := addOnce (h.idx * 4 + (unit - 0x60)) d.power.isolatedCores } }
  else if 0x100 ≤ unit ∧ unit < 0x300 then d.resetQueue (h.idx * 512 + (unit - 0x100))
  else d

/-- The unit action of a report: what its chapter leaves to Canary, and isolation of a kind raised to CONTAIN. -/
def Device.unitAction (d : Device) (h : Half) (m : CanMsg) (cls : Nat) : Device :=
  let kind := msgKind m.word0
  let base := max (kindClass kind) (condClass kind m.cond)
  if kind = 0x6C ∨ kind = 0x6D then
    Device.refreshCredits { d with deputy := { d.deputy with running := tset false h.idx false d.deputy.running } } h
  else if kind = 0x1B then
    let k := memPart h
    if (dramConvs h).contains (msgDetail m.word0) ∧ (d.part k).st = .on then d.partOff k 0x1B else d
  else if cls = 2 ∧ base < 2 then d.isolateUnit h (msgUnit m.word0) kind
  else d

/-- The class reaction beside ALERT_N: Overman's interrupt and EVENT CANARY for DEGRADE and CONTAIN, the safe state for HALT, with the
interrupt while Overman serves (R331). -/
def Device.classReaction (d : Device) (h : Half) (word0 : W64) (addr cls : Nat) : Device :=
  if cls = 3 then (if d.serving h then d.interrupt h .canary else d).enterSafe h
  else if cls = 0 then d
  else (d.interrupt h .canary).eventFrom h 0x000E (msgKind word0 + cls * 256) word0.toNat addr

/-- A capture of DEGRADE or higher is held: the half drives ALERT_N low. -/
def Canary.alert (c : Canary) : Bool := c.held.any fun r => r.reacted != 0#2

/-- ALERT_N is low: the wired OR of both halves' outputs (R13, R331). -/
def Device.alertLow (d : Device) : Bool := (d.canary .a).alert || (d.canary .b).alert

/-- A half drives FAULT_N low: in the safe state, and until its Deputy runs (R63, R332). -/
def Device.faultLow (d : Device) : Bool := d.pins.porstLow || (d.canary .a).safe || (d.canary .b).safe

/-- A notice goes to the other half, over the crosscut or the bell line (R327). -/
def Device.sendNotice (d : Device) (h : Half) (word0 : W64) (cls : Nat) : Device :=
  if d.crosscutUp ∨ d.bellUp then
    let n : NoticeRec := { source := BitVec.ofNat 11 (word0.toNat / 2 ^ 53), kind := BitVec.ofNat 7 (msgKind word0)
                           cls := BitVec.ofNat 2 cls }
    d.modCanary h.other fun c => { c with notices := c.notices ++ [n] }
  else d

/-! ## Captures (R325, R326, R333-R335) -/

/-- An entry of the sticky log takes an uncorrectable error: an armed injection of the log's checker (R334, R335). -/
def Device.logCheck (d : Device) (h : Half) (slot : Nat) : Device :=
  match d.armedFor h 0x6F 1 with
  | none => d
  | some mode =>
    let d := d.consumeInjection h
    if mode then d
    else
      let d := d.modCanary h fun c =>
        let e := c.logAt slot
        let w2 := e.word 2 ||| w32 (2 ^ 29)
        { c with log := tset {} slot { words := e.words.take 2 ++ [w2] ++ e.words.drop 3 } c.log }
      (d.perr .a (canP h) 4).report h { unitReport 0x6F 0x79 (canP h) (0x400 + 0x20 * slot) with injected := true }

/-- Open a capture: record the report, write its log entry, react, and tell the other half. -/
def Device.openCapture (d : Device) (h : Half) (m : CanMsg) (cls : Nat) : Device :=
  let w := m.word0
  let now := d.tb h
  let hi := m.addrHi.getD 0#16
  let c := d.canary h
  let w2 := hi.toNat + flag m.addrHi.isSome 16 + 2 ^ 17 + cls * 2 ^ 24 + 2 ^ 28
  let words := [w.setWidth 32, (w >>> 32).setWidth 32, w32 w2, w32 (m.master.toNat * 2 ^ 16 + m.access.toNat * 2 ^ 24),
    now.setWidth 32, (now >>> 32).setWidth 32, 0#32]
  let (slot, c) := c.writeLog words
  let r : CaptureRec :=
    { source := BitVec.ofNat 11 (w.toNat / 2 ^ 53), kind := BitVec.ofNat 7 (msgKind w), cls := BitVec.ofNat 2 cls, word0 := w
      hi, hiValid := m.addrHi.isSome, master := m.master, access := m.access, time := now, reacted := BitVec.ofNat 2 cls
      logSlot := slot }
  let d := (d.setCanary h { c with held := some r, other := none }).logCheck h slot
  (d.classReaction h w (msgAddr w + hi.toNat * 2 ^ 32) cls).sendNotice h w cls

/-- Merge a class into the held capture: count it, and react when it is higher than any before (R326). -/
def Device.mergeClass (d : Device) (h : Half) (word0 : W64) (addr cls : Nat) (own : Bool) : Device :=
  let c := d.canary h
  match c.held with
  | none => d
  | some r =>
    let higher := decide (r.reacted.toNat < cls)
    let r := { r with
      merge := satNat 65535 (r.merge + 1)
      classes := r.classes ||| BitVec.ofNat 4 (2 ^ cls)
      reacted := if higher then BitVec.ofNat 2 cls else r.reacted }
    let d := d.setCanary h { c with held := some r }
    if !higher then d
    else
      let d := d.classReaction h word0 addr cls
      if own then d.sendNotice h word0 cls else d

/-- A report of the CLU or LPE page of an engine whose capture is armed (R155). -/
def Device.captureReport (d : Device) (h : Half) (m : CanMsg) : Device :=
  let c := d.capture h
  match c.owner with
  | some n =>
    let page := pageAt (msgAddr m.word0)
    if c.st = .armed ∧ msgUnit m.word0 = n % 36 ∧ (page = some (cluP n) ∨ page = some (lpeP n)) then
      d.setCapture h { c with seen := true }
    else d
  | none => d

/-- Canary accepts a report: it counts it, acts on its unit, and captures or merges it (R323, R325). The classes it looks up are
stored pairs, checked as they are used (R33), but for a CMPL_STORE itself. -/
def Device.acceptReport (d : Device) (h : Half) (m : CanMsg) : Device :=
  let fails := !messageChecks m || kindReserved (msgKind m.word0)
  let inj := if fails then none else d.armedFor h 0x6F 0
  let d := if inj.isSome then d.consumeInjection h else d
  let m := if fails ∨ inj.isSome then asCmpl m h inj.isSome else m
  let kind := msgKind m.word0
  let d := (if kind = 0x06 then d else d.checkStored h (canP h)).captureReport h m
  let d := d.modCanary h fun c => { c with counts := tset 0#16 kind (satInc (tget 0#16 c.counts kind)) c.counts }
  let cls := d.classOf h kind m.cond
  let d := d.unitAction h m cls
  if (d.canary h).held.isSome then
    d.mergeClass h m.word0 (msgAddr m.word0 + (m.addrHi.getD 0#16).toNat * 2 ^ 32) cls true
  else if 1 ≤ cls ∨ bit (d.reg .a (canP h) 0x60) 0 then d.openCapture h m cls
  else d

/-- A report arrives: a message given from outside, or the oldest one under way from the half's own checkers (R324). -/
def Device.canaryReport (d : Device) (h : Half) (msg : Option CanMsg) : Device :=
  if !d.awake then d
  else match msg with
    | some m => d.acceptReport h m
    | none =>
      match (d.canary h).inFlight with
      | [] => d
      | m :: ms => (d.modCanary h fun c => { c with inFlight := ms }).acceptReport h m

/-- The oldest notice under way to a half arrives (R327). -/
def Device.notice (d : Device) (h : Half) : Device :=
  let c := d.canary h
  match c.notices with
  | [] => d
  | n :: rest =>
    let d := if d.crosscutUp then d else d.bellFrame h
    let c := d.canary h
    let held := c.held.map fun r => { r with second := true }
    let other := if held.isNone then c.other else match c.other with
      | none => some n
      | some o => some o
    let d := d.setCanary h { c with notices := rest, held, other }
    let w := BitVec.ofNat 64 (n.source.toNat * 2 ^ 53 + n.kind.toNat * 2 ^ 46)
    let d := d.mergeClass h w 0 n.cls.toNat false
    if n.cls = 3#2 then d.enterSafe h else d

/-! ## Release, counters (R328, R337) -/

/-- CAP.RELEASE: a capture whose REACTED is HALT stays. -/
def Device.releaseCapture (d : Device) (h : Half) : Bool × Device :=
  let c := d.canary h
  match c.held with
  | none => (true, d)
  | some r =>
    if r.reacted = 3#2 then (false, d.perr .a (canP h) 1)
    else
      let c := c.closeLog (d.tb h) true
      (true, (d.setCanary h { c with held := none, other := none }).logCheck h r.logSlot)

/-- A packet is the EVENT CANARY of a report (R268, R331). -/
def OutPkt.isCanaryEvent (p : OutPkt) (word0 : W64) : Bool :=
  p.opcode == 0x83#8 && fieldAt p.payload 0 2 == 0x000E && fieldAt p.payload 8 8 == word0.toNat

/-- Deputy serves a half in boot mode: its core runs, and no Overman serves in its place (R304, R328). -/
def Device.bootMode (d : Device) (h : Half) : Bool :=
  d.awake && tget false d.deputy.running h.idx && (if d.apart then !d.serving h else !d.anyServing)

/-- The packet just written was the event of a half's DEGRADE or CONTAIN capture, and no queue still holds that event: Deputy in boot
mode releases the capture (R328). -/
def Device.bootRelease (p : OutPkt) (d : Device) (h : Half) : Device :=
  match (d.canary h).held with
  | none => d
  | some r =>
    let left := d.host.queues.any fun e => e.2.out.any (·.isCanaryEvent r.word0)
    if d.bootMode h ∧ r.reacted ≠ 3#2 ∧ p.isCanaryEvent r.word0 ∧ !left then (d.releaseCapture h).2 else d

/-- The packet at the head of a queue's output buffer is written to its ring; Deputy in boot mode then releases the capture that the
packet told of. -/
def Device.writeOut (d : Device) (q : Nat) : Device :=
  let e := d.ringWrite q
  match (d.queue q).out with
  | p :: _ => if (e.queue q).outSeq = (d.queue q).outSeq then e else e.each [Half.a, .b] (Device.bootRelease p)
  | [] => e

def execRingWrite (q : Fin 1024) (s : State) : Host.Outcome State Fault Refusal := runOn s fun d => d.writeOut q

def execRelease (m : Master) (h : Half) (s : State) : Host.Outcome State Fault Refusal :=
  runOn s fun d => d.guarded m (canP h) 0x40 0x80000000#32 fun d => d.releaseCapture h

def Device.clearCounts (d : Device) (h : Half) : Device := d.modCanary h fun c => { c with counts := [] }

/-- A write of CTL: CNTCLR clears every counter, and the other bits are stored (R337). -/
def Device.canControl (d : Device) (h : Half) (v : W32) : Bool × Device :=
  let d := if bit v 1 then d.clearCounts h else d
  (true, d.setReg .a (canP h) 0x60 (v &&& 0xFF05#32))

def execCntclr (m : Master) (h : Half) (s : State) : Host.Outcome State Fault Refusal :=
  runOn s fun d =>
    let v := d.reg .a (canP h) 0x60 ||| 2#32
    d.guarded m (canP h) 0x60 v fun d => d.canControl h v

/-! ## Injection (R335, R336, R338) -/

/-- A checker ID of R335's table; its bit 15 is reserved and not looked at (R8). -/
def checkerKnown (id : Nat) : Bool :=
  let unit := id % 1024
  let idx := id / 1024 % 32
  (if unit < 0x24 then decide (idx < 2)
     else if 0x30 ≤ unit ∧ unit < 0x4C ∨ 0x58 ≤ unit ∧ unit < 0x60 ∨ unit = 0x69 ∨ unit = 0x6E then idx == 0
     else if unit = 0x64 ∨ unit = 0x6F then decide (idx < 2)
     else false)

/-- The deputy core's checkers compare on every cycle: an armed injection of theirs is used up at once (R335; DESIGN CHOICE, LOG 22). -/
def Device.deputyChecks (d : Device) (h : Half) : Nat → Device
  | 0 => d
  | n + 1 =>
    let rep (d : Device) (kind : Nat) : Device :=
      d.report h { unitReport 0x64 kind depP with access := 6, injected := true }
    match d.armedFor h 0x64 0, d.armedFor h 0x64 1 with
    | some _, _ => (rep (d.consumeInjection h) 0x6C).deputyChecks h n
    | none, some mode =>
      let d := d.consumeInjection h
      (if mode then d else rep d 0x6D).deputyChecks h n
    | none, none => d

/-- Arm an injection, or refuse it. -/
def Device.arm (d : Device) (h : Half) (id count : Nat) (who : Byte) : Device :=
  let c := d.canary h
  if !checkerKnown id ∨ count = 0 ∨ c.armed then
    (d.setCanary h { c with refused := true }).perr .a (canP h) 2
  else
    let d := d.setCanary h { c with
      injLeft := count, armed := true, injDone := false, refused := false, cancelled := false, requester := who }
    d.deputyChecks h count

/-- INJREQ: Deputy copies the request into CANJ and arms it; a refused one is not copied. -/
def Device.injReq (d : Device) (m : Master) (h : Half) (v : W32) : Bool × Device :=
  let id := fld v 14 0
  let n := fld v 23 16
  let ok := checkerKnown id && decide (0 < n) && !(d.canary h).armed
  let d := if ok then
      let p := canjP h
      ((d.setReg .a p 0x40 (w32 (id + flag (bit v 24) 24))).setReg .a p 0x44 (w32 n)).bumpSeq .a p
    else d
  (true, d.arm h id n (BitVec.ofNat 8 (masterCode m)))

def execInjreq (m : Master) (h : Half) (v : W32) (s : State) : Host.Outcome State Fault Refusal :=
  runOn s fun d => d.guarded m (canP h) 0x70 v fun d => d.injReq m h v

/-- INJCMD: ARM takes what INJID and INJCNT hold; CANCEL ends an armed injection. -/
def Device.injCommand (d : Device) (m : Master) (h : Half) (v : W32) : Bool × Device :=
  let p := canjP h
  let d := if bit v 0 then
      d.arm h (low16 (d.reg .a p 0x40)) (fld (d.reg .a p 0x44) 7 0) (BitVec.ofNat 8 (masterCode m)) else d
  let d := if bit v 1 then d.modCanary h fun c => if c.armed then { c with armed := false, cancelled := true } else c else d
  (true, d)

def execInjcmdArm (m : Master) (h : Half) (s : State) : Host.Outcome State Fault Refusal :=
  runOn s fun d => d.guarded m (canjP h) 0x48 1#32 fun d => d.injCommand m h 1#32

def execInjcmdCancel (m : Master) (h : Half) (s : State) : Host.Outcome State Fault Refusal :=
  runOn s fun d => d.guarded m (canjP h) 0x48 2#32 fun d => d.injCommand m h 2#32

end Sys2Proof.Machine
end

