-- ==== Sys2Proof/Machine/Clocks.lean ====
section
/-! DEFINITION. Clock sources, PLL locks, crossings and the alignment of the two timebases (R45-R58). -/

namespace Sys2Proof.Machine

/-- A half's AONCLK runs from its internal oscillator: CLK[0].AON.SRCh (R46). -/
def Device.onOscillator (d : Device) (h : Half) : Bool := bit (d.reg .a clkP 0x44) h.idx

def Device.setOscillator (d : Device) (h : Half) (on : Bool) : Device :=
  d.setBoth clkP 0x44 (setFld (d.reg .a clkP 0x44) h.idx h.idx (flag on 0))

/-- A report of the clocks and timebase (unit 0x068): its address is that of LOCK, AON or TBSTAT, its detail the PLL's number
(the spec states neither; DESIGN CHOICE, LOG 60). -/
def clockReport (kind : Nat) (p : PageId) (off detail : Nat) : Report := unitReport 0x68 kind p off detail

/-- The count of 20 µs after PORST_N: 400 to 600 edges lock the AON PLL to MGMT_CLK (R46). -/
def Device.mgmtCount (d : Device) (h : Half) (edges : Nat) : Device :=
  if d.pins.porstLow ∨ tget false d.time.counted h.idx then d
  else
    let d := { d with time := { d.time with counted := tset false h.idx true d.time.counted } }
    d.setOscillator h (!(decide (400 ≤ edges ∧ edges ≤ 600)))

def execMgmtClkCount (h : Half) (edges : Nat) (s : State) : Host.Outcome State Fault Refusal :=
  runOn s fun d => d.mgmtCount h edges

/-- MGMT_CLK is lost while the island runs from it, which it does once it has counted its edges: the island goes over to its
oscillator until the next PORST_N (R46, R47). -/
def Device.mgmtLost (d : Device) (h : Half) : Device :=
  if d.pins.porstLow ∨ !tget false d.time.counted h.idx ∨ d.onOscillator h then d
  else (d.setOscillator h true).report h (clockReport 0x14 clkP 0x44 0)

def execMgmtClkLost (h : Half) (s : State) : Host.Outcome State Fault Refusal := runOn s fun d => d.mgmtLost h

/-- A PLL loses lock on its reference (R48). The AON PLL acts under R47. The loss of SYNC_IN by a regulator PLL is SYNC_LOST,
which glides (R125). -/
def Device.pllUnlock (d : Device) (h : Half) (pll : Nat) : Device :=
  if !bit (d.reg .a clkP 0x40) (16 * h.idx + pll) then d
  else if pll = 0 then d.mgmtLost h
  else (d.setLock h pll false).report h (clockReport 0x15 clkP 0x40 pll)

def execPllUnlock (h : Half) (pll : Fin 9) (s : State) : Host.Outcome State Fault Refusal :=
  runOn s fun d => d.pllUnlock h pll

/-- A critical value crosses with a bad complement: the receiving unit reports, and the next word of the register at that
address is discarded on its way, the last consistent value staying in use (R51; DESIGN CHOICE, LOG 58). -/
def Device.xingError (d : Device) (h : Half) (unit : BitVec 10) (addr : W32) : Device :=
  if d.pins.porstLow then d
  else
    let d := match pageAt addr.toNat with
      | none => d
      | some p =>
        let key := regKey h p (addr.toNat % 0x1000)
        { d with cross := { d.cross with bad := d.cross.bad.filter (· != key) ++ [key] } }
    d.report h { unit := unit.toNat, kind := 0x11, addr := addr.toNat }

def execXingCmpl (h : Half) (unit : BitVec 10) (addr : W32) (s : State) : Host.Outcome State Fault Refusal :=
  runOn s fun d => d.xingError h unit addr

/-! ## The timebases (R53-R57) -/

/-- TBPER in counts (R54). -/
def Device.alignPeriod (d : Device) : Nat := fld (d.reg .a tmbP 0x4C) 6 0 * ms

def Device.tbStat (d : Device) : W32 := d.reg .a tmbP 0x48

/-- Write TBSTAT in both halves. -/
def Device.setTbStat (d : Device) (aligned silent : Bool) (offset : Int) : Device :=
  d.setBoth tmbP 0x48 (w32 (flag aligned 31 + flag silent 30 + ofSigned 16 offset))

def Device.aligned (d : Device) : Bool := bit d.tbStat 31

/-- The last measured offset in ns. -/
def Device.tbOffset (d : Device) : Int := toSigned 16 (low16 d.tbStat)

/-- Every TBPER since the last, Deputy A sends an alignment exchange, in DORMANT too; on a silent bell line it fails (R55),
whether or not the crosscut could carry frames (the spec does not say; DESIGN CHOICE, LOG 60). -/
def Device.alignExchange (d : Device) : Device :=
  if d.pins.porstLow then d
  else
    let d := d.advanceTo .a (d.time.lastExch + BitVec.ofNat 64 d.alignPeriod)
    let d := { d with time := { d.time with lastExch := d.time.tbA } }
    if d.bellUp then { d with link := { d.link with bell := { d.link.bell with align := true } } }
    else d.setTbStat d.aligned true d.tbOffset

def execAlignmentExchange (s : State) : Host.Outcome State Fault Refusal := runOn s Device.alignExchange

/-- ALIGNED clears and both halves' status follows; the report goes to one half's Canary (R56). -/
def Device.unalign (d : Device) (h : Half) (offset : Int) : Device :=
  (d.setTbStat false (bit d.tbStat 30) offset).report h (clockReport 0x16 tmbP 0x48 0)

/-- Half B minus Half A in counts. -/
def Time.skew (t : Time) : Int := (t.tbB - t.tbA).toInt

/-- The islands' oscillators have let the timebases drift until Half B lies `counts` from Half A: the one behind moves on
(R46, R57; DESIGN CHOICE, LOG 61). -/
def Time.drift (t : Time) (counts : Int) : Time :=
  let by_ := counts - t.skew
  if 0 ≤ by_ then { t with tbB := t.tbB + BitVec.ofInt 64 by_ } else { t with tbA := t.tbA + BitVec.ofInt 64 (-by_) }

/-- A measured offset in ns as whole counts, to the nearest, halves away from 0 (the spec does not say how; DESIGN CHOICE,
LOG 61). -/
def offsetCounts (ns : Int) : Int := roundDiv ns 10

/-- The offset that Half B can measure: any where an island runs from its oscillator; while both count the edges of MGMT_CLK,
one within a count of the timebases' own (R56; DESIGN CHOICE, LOG 61). -/
def Device.measured (d : Device) (offset : Int) : Int :=
  let o := clampInt (-32768) 32767 offset
  if d.onOscillator .a || d.onOscillator .b then o
  else clampInt (-32768) 32767 (clampInt (10 * d.time.skew - 10) (10 * d.time.skew + 10) o)

/-- A TB_ALIGN frame arrives: Half B has measured its offset in ns, and slews it away (R55). Beyond ±20 ns Half B's Canary
receives TB_UNALIGNED (the spec names no half's; DESIGN CHOICE, LOG 60). -/
def Device.tbAlign (d : Device) (offset : Int) : Device :=
  if !d.link.bell.align then d
  else
    let o := d.measured offset
    let was := d.aligned
    let ok := decide (-20 ≤ o ∧ o ≤ 20)
    let bell := { d.link.bell with align := false }
    let t := if d.onOscillator .a || d.onOscillator .b then d.time.drift (offsetCounts o) else d.time
    let time := { t with slew := -offsetCounts o, lastAlign := t.tbA }
    let d := Device.setTbStat { d with time, link := { d.link with bell } } ok false o
    (if was ∧ !ok then d.report .b (clockReport 0x16 tmbP 0x48 0) else d).bellFrame .b

def execTbAlign (offset : Int) (s : State) : Host.Outcome State Fault Refusal := runOn s fun d => d.tbAlign offset

/-- Three intervals without a successful exchange while an island runs from its oscillator (R56). -/
def Device.tbUnaligned (d : Device) (h : Half) : Device :=
  if d.pins.porstLow ∨ !d.aligned ∨ !(d.onOscillator .a || d.onOscillator .b) then d
  else
    let d := d.advanceTo .a (d.time.lastAlign + BitVec.ofNat 64 (3 * d.alignPeriod))
    d.unalign h d.tbOffset

def execTbUnaligned (h : Half) (s : State) : Host.Outcome State Fault Refusal := runOn s fun d => d.tbUnaligned h

end Sys2Proof.Machine
end

