-- ==== Sys2Proof/Machine/DeputyFam.lean ====
section
/-! DEFINITION. Deputy and Overman: loads and authentication, serving, the watchdog, STORE and the fuses (R296, R297,
R303-R320). -/

namespace Sys2Proof.Machine

/-! ## The load of an image (R306-R308) -/

/-- The two halves. -/
def bothHalves : List Half := [.a, .b]

/-- Largest image: 48 MiB (R264). -/
def fwMax : Nat := 50331648

/-- End an open load with FW_REJECTED on its own queue (R307); the packet that opened it has been answered. -/
def Device.dropLoad (d : Device) (detail : Nat) : Device :=
  match d.deputy.load with
  | none => d
  | some l =>
    let h := queHalf l.queue
    let o := d.ovman h
    let d := d.setOvman h (if o.st = .loading then { o with st := .absent } else o)
    Device.pushOut { d with deputy := { d.deputy with load := none } } l.queue
      (statusPkt (d.stamp l.queue) l.seq 0x0016 detail 0 0)

/-- An image that has not served yet is given up: its FW_END is answered, and it is ABSENT again (R307, R308). -/
def Device.dropStart (d : Device) (detail : Nat) : Device :=
  d.each bothHalves fun d h =>
    let o := d.ovman h
    if o.st = .starting then
      (d.setOvman h { restartUsed := o.restartUsed }).answerAsker o.asker 0x0016 detail 0 0
    else d

/-- FW_BEGIN that passed its field checks (R307): a new load clears OSTAT[8] (R314). -/
def Device.beginLoad (d : Device) (q : Nat) (p : Packet) (size : Nat) : Device :=
  let h := queHalf q
  let d := (d.dropLoad 0x0A).dropStart 0x0A
  let d := d.each bothHalves fun d h => d.setOvman h { d.ovman h with restartUsed := false }
  let d := (d.setReserve h []).setOvman h { st := .loading }
  ({ d with deputy := { d.deputy with load := some { queue := q, seq := p.seq, size } } }).answer q p 0 0

/-- The 64-byte units of a load that a write of n bytes at a 64-byte offset covers whole; the last unit of an image may
be shorter. -/
def unitsCovered (size off n : Nat) : List Nat :=
  (List.range ((n + 63) / 64)).filterMap fun i =>
    if 64 * (i + 1) ≤ n ∨ off + n = size then some (off / 64 + i) else none

/-- FW_DATA (R265, R307, R308). -/
def Device.loadData (d : Device) (q : Nat) (p : Packet) (off : Nat) (bytes : List Byte) : Device :=
  match d.deputy.load with
  | none => d.answer q p 0x0016 0x02
  | some l =>
    if l.queue ≠ q then d.answer q p 0x0016 0x02
    else if off % 64 ≠ 0 then d.answer q p 0x0011 0x14
    else if l.size < off + bytes.length then d.answer q p 0x0016 0x03
    else
      let h := queHalf q
      let new := (unitsCovered l.size off bytes.length).filter fun u => !l.written.contains u
      let d := d.setReserve h (putBytes (d.reserveOf h) off bytes)
      ({ d with deputy := { d.deputy with load := some { l with written := new ++ l.written } } }).answer q p 0 0

/-- The header's own rules: signature, format, version, sizes, entry offset, reserved fields (R306, step 3). -/
def fwHeaderOk (m : List Host.Cell) (size : Nat) : Bool :=
  let hd := getBytes m 0 512
  let body := fieldAt hd 12 4
  let entry := fieldAt hd 16 8
  decide (512 ≤ size) && fieldAt hd 0 4 == 0x0B7E2A11 && fieldAt hd 4 2 == 1 && zerosAt hd 6 2
    && decide (fieldAt hd 8 4 ≤ 64) && 512 + body == size && entry % 4 == 0 && decide (entry < body)
    && zerosAt hd 24 8 && zerosAt hd 224 288

/-- The anti-rollback counter of a half: as delivered, or as ARB_ADVANCE left it (R309). -/
def Device.fuseOf (d : Device) (h : Half) : Nat := max (Config.antiRollback h.idx) (tget 0 d.deputy.fuseCount h.idx)

/-- The effective counter: the higher of the two (R309). -/
def Device.effectiveFuse (d : Device) : Nat := max (d.fuseOf .a) (d.fuseOf .b)

/-- Steps 2 to 6 of R308 on the open load: the detail of the first that fails, 0 when all pass. -/
def Device.authenticate (d : Device) (l : FwLoad) : Nat :=
  let h := queHalf l.queue
  let m := d.reserveOf h
  let hd := getBytes m 0 224
  let key := slice hd 32 96
  if !((List.range ((l.size + 63) / 64)).all l.written.contains) then 0x04
  else if !fwHeaderOk m l.size then 0x05
  else if !Config.keyProgrammed h.idx || sha384 key != Config.keyHash h.idx then 0x06
  else if fieldAt hd 8 4 < d.effectiveFuse then 0x07
  else if !ecdsaVerify (imageDigest m l.size) (beNat (slice hd 32 48)) (beNat (slice hd 80 48)) (beNat (slice hd 128 48))
      (beNat (slice hd 176 48)) then 0x08
  else 0

/-- FW_AUTH_FAIL (R308, R322). -/
def Device.authFail (d : Device) (h : Half) : Device := d.report h (unitReport 0x64 0x66 depP)

/-- Start the verified image on some halves: it must serve within 40 ms of FW_END (R308, step 8). -/
def Device.startImage (d : Device) (l : FwLoad) (q : Nat) (p : Packet) (hs : List Half) : Device :=
  let h := queHalf q
  let m := d.reserveOf h
  let o : Overman := { version := imgField m 8 4, size := l.size, digest := imageDigest m l.size
                       asker := none }
  d.each hs fun d k =>
    let asker := if k = h then some { queue := q, seq := p.seq, padded := p.padded } else none
    ((d.setReserve k m).setOvman k { o with asker }).startOvm k .starting (d.tb k + BitVec.ofNat 64 (40 * ms))

/-- FW_END: steps 1 to 7 of R308, then the start. With the crosscut down the receiving half starts alone;
so it does while the other half is served already. -/
def Device.endLoad (d : Device) (q : Nat) (p : Packet) : Device :=
  let h := queHalf q
  match d.deputy.load.filter fun l => l.queue == q with
  | none => (d.answer q p 0x0016 0x02).authFail h
  | some l =>
    let two := d.crosscutUp && !d.serving h.other
    let fail := d.authenticate l
    let fail := if fail = 0 ∧ two ∧ !(tget false d.deputy.running h.other.idx) then 0x0B else fail
    let d := { d with deputy := { d.deputy with load := none } }
    if fail ≠ 0 then ((d.setOvman h {}).answer q p 0x0016 fail).authFail h
    else d.startImage l q p (if two then [h, h.other] else [h])

/-! ## Serving (R308, R311, R314) -/

/-- A request queue's first credits from a serving Overman (R314). -/
def Device.grantCredits (d : Device) (q : Nat) : Device :=
  d.modQueue q fun x =>
    if x.st = .active ∧ !isControl q then
      { x with pktLim := x.accSeq + w32 (d.queDepth q), byteLim := x.accBytes + w32 (d.queCap q) } else x

/-- Overman is starting or restarting on a half, and its 40 ms have not passed (R308, R314). -/
def Device.mayServe (d : Device) (h : Half) : Bool :=
  let o := d.ovman h
  (o.st == .starting || o.st == .restarting) && decide ((d.tb h).toNat ≤ o.deadline.toNat)

/-- Overman reports serving on a half: the set-point freeze and the safe budget end, its queues are its own, and FW_END is
answered (R308, R313, R314). -/
def Device.serveHalf (d : Device) (h : Half) : Device :=
  if !d.mayServe h then d
  else
    let o := d.ovman h
    let d := d.setOvman h { o with st := .serving, asker := none }
    let d := d.modGov h fun g => { g with frozen := false, safe := false }
    let d := d.each (d.queueNumbers.filter (queHalf · == h)) Device.grantCredits
    ((d.refreshCredits h).eventServing h 1).answerAsker o.asker 0 0 0 0

def execServe (m : Master) (s : State) : Host.Outcome State Fault Refusal :=
  runOn s fun d => d.guarded m ovmP 0x44 1#32 fun d => (true, d.each (d.copies (homeOf m) ovmP) Device.serveHalf)

/-- Overman waits to serve on a half. -/
def Device.waitsToServe (d : Device) (h : Half) : Bool :=
  match (d.ovman h).st with
  | .starting | .restarting => true
  | _ => false

/-- The image has not reported serving in time: FW_END fails with 0x09, or the restart ends in boot mode (R308, R314). -/
def Device.serveLate (d : Device) (h : Half) : Device :=
  let o := d.ovman h
  if o.st = .starting then
    let d := (d.setOvman h { restartUsed := o.restartUsed }).answerAsker o.asker 0x0016 0x09 0 0
    if o.asker.isSome then d.authFail h else d
  else if o.st = .restarting then (d.setOvman h { o with st := .lost, stopped := true }).enterBoot h
  else d

/-- The instant the watchdog of a half expires: WDTIME ms after the last kick (R313). -/
def Device.watchdogAt (d : Device) (h : Half) : W64 :=
  (d.ovman h).kick + BitVec.ofNat 64 (fld (d.reg h ovmP 0x4C) 9 0 * ms)

/-- Halves that act together: one alone while the halves are apart. -/
def Device.together (d : Device) (h : Half) (p : Half → Bool) : List Half :=
  if d.apart then (if p h then [h] else []) else [h, h.other].filter p

/-- SERVE_TIMEOUT: time passes to the deadline, unless the watchdog expires first. -/
def Device.serveTimeout (d : Device) (h : Half) : Device :=
  let o := d.ovman h
  if !d.waitsToServe h || decide ((d.watchdogAt h).toNat < o.deadline.toNat) then d
  else
    let d := d.advanceTo h o.deadline
    d.each (d.together h d.waitsToServe) Device.serveLate

def execServeTimeout (h : Half) (s : State) : Host.Outcome State Fault Refusal := runOn s fun d => d.serveTimeout h

/-! ## The watchdog (R313) -/

/-- A write of WDKICK: the watchdog counts from now on every copy the write reaches. -/
def Device.wdkick (d : Device) (m : Master) : Device :=
  d.each (d.copies (homeOf m) ovmP) fun d h => d.setOvman h { d.ovman h with kick := d.tb h }

def execWdkick (m : Master) (s : State) : Host.Outcome State Fault Refusal :=
  runOn s fun d => d.guarded m ovmP 0x48 0#32 fun d => (true, d.wdkick m)

/-- The watchdog expires: an image that has not served yet is rejected, then R313 runs. A start that must serve before the
watchdog expires is SERVE_TIMEOUT's. -/
def Device.watchdog (d : Device) (h : Half) : Device :=
  let t := d.watchdogAt h
  if !d.ovmAlive h || (d.waitsToServe h && decide ((d.ovman h).deadline.toNat < t.toNat)) then d
  else
    let d := d.advanceTo h t
    let hs := d.together h d.ovmAlive
    let d := d.each hs fun d k => d.report k (unitReport 0x60 0x65 ovmP)
    let d := d.each hs fun d k => if (d.ovman k).st = .starting then d.serveLate k else d
    d.ovmLoss hs

def execOvmWatchdog (h : Half) (s : State) : Host.Outcome State Fault Refusal := runOn s fun d => d.watchdog h

/-- A service-core access outside its rights: refused and reported; a refused read returns 0 (R297). -/
def Device.busViolation (d : Device) (core : Fin 8) (write : Bool) (addr : Nat) : Device :=
  let h := homeOf (.ovm core)
  if d.power.isolatedCores.contains core.val || !d.ovmAlive h then d
  else
    let d := if write then d else d.returnRead (.ovm core) 0#32
    d.report h { unit := 0x60 + core.val % 4, kind := 0x64, addr, master := masterCode (.ovm core)
                 access := if write then 1 else 0, wide := true }

def execOvmBusViolation (core : Fin 8) (write : Bool) (addr : BitVec 48) (s : State) : Host.Outcome State Fault Refusal :=
  runOn s fun d => d.busViolation core write addr.toNat

/-! ## STORE (R304, R317, R318) -/

def Device.modNvm (d : Device) (f : Nvm → Nvm) : Device := { d with nvm := f d.nvm }

/-- The bank of a half that a STORE writes: the one whose sequence is not in force there. -/
def Device.idleBank (d : Device) (h : Half) : Nat :=
  match tget none d.nvm.inForce h.idx with
  | some 0 => 1
  | _ => 0

/-- 1 plus the highest sequence in any bank header that checks, on the halves a STORE reaches. -/
def Device.nextSeq (d : Device) (hs : List Half) : W32 :=
  (hs.flatMap fun h => [d.bank h 0, d.bank h 1]).foldl
    (fun m b => if b.header && decide (m.toNat < (b.seq + 1#32).toNat) then b.seq + 1#32 else m) 1#32

/-- A section of the bank in force on a half; no bank in force holds none. -/
def Device.forceSection (d : Device) (h s : Half) : List (W32 × W32) :=
  match tget none d.nvm.inForce h.idx with
  | none => []
  | some b => match s with
    | .a => (d.bank h b).secA
    | .b => (d.bank h b).secB

/-- Steps 1, 3 and 4 of R318: the snapshot, written to the inactive bank of each participating half without a commit
record. -/
def Device.writeBanks (d : Device) (home : Half) (localOnly : Bool) : Device :=
  let hs : List Half := if localOnly then [home] else bothHalves
  let seq := d.nextSeq hs
  let own (s : Half) : List (W32 × W32) := if localOnly && s != home then d.forceSection home s else d.halfSection s
  let globalSec := d.globalSection (if localOnly then home else .a)
  let secA := own .a
  let secB := own .b
  d.each hs fun d h =>
    d.setBank h (d.idleBank h)
      { header := true, commit := false, forceLocal := localOnly, writer := h, seq, globalSec, secA, secB }

/-- A STORE begins: its snapshot belongs to the first commit-grid boundary. With no transport and no FORCE_LOCAL it waits
for its result with nothing written (step 2). -/
def Device.beginStore (d : Device) (r : StoreReq) : Device :=
  let d := d.advanceGrid r.home 128
  if d.crosscutUp || d.bellUp then
    (d.writeBanks r.home false).modNvm fun n => { n with st := .writing, current := some r, localStore := false }
  else if r.force then
    (d.writeBanks r.home true).modNvm fun n => { n with st := .writing, current := some r, localStore := true }
  else d.modNvm fun n => { n with st := .waiting, current := some r, localStore := false }

/-- Two requests that wait together become one (R318). -/
def StoreReq.merge (x y : StoreReq) : StoreReq := { x with force := x.force || y.force, askers := x.askers ++ y.askers }

/-- A STORE request: merged into one that waits, else begun, else the next. -/
def Device.requestStore (d : Device) (r : StoreReq) : Device :=
  match d.nvm.current with
  | none => d.beginStore r
  | some c =>
    if d.nvm.st = .waiting then d.beginStore (c.merge r)
    else d.modNvm fun n => { n with next := some (match n.next with
      | none => r
      | some x => x.merge r) }

/-- The result of the STORE in progress: its packets are answered, and the next request begins. -/
def Device.finishStore (d : Device) (r : StoreReq) (result : BitVec 4) (code detail : Nat) : Device :=
  let next := d.nvm.next
  let d := d.modNvm fun n => { n with st := .idle, result, current := none, next := none, localStore := false }
  let d := { d with link := { d.link with bell := { d.link.bell with storeData := false } } }
  let d := d.each r.askers fun d a => d.answerAsker (some a) code detail 0 0
  match next with
  | none => d
  | some x => d.beginStore x

/-- Step 6 on one half: the commit record makes the new bank the one in force. -/
def Device.commitBank (d : Device) (h : Half) : Device :=
  let b := d.idleBank h
  let d := d.setBank h b { d.bank h b with commit := true }
  d.modNvm fun n => { n with
    inForce := tset none h.idx (some b) n.inForce
    count := tset 0#32 h.idx (tget 0#32 n.count h.idx + 1#32) n.count }

/-- STORE_COMPLETE: MIRROR_UNAVAILABLE for a STORE that found no transport; else the read-back decides (steps 5-7). A
mirrored STORE over the bell line needs the NVM frames of R366. -/
def Device.storeDone (d : Device) (readBackOk : Bool) : Device :=
  match d.nvm.current with
  | none => d
  | some r =>
    if d.nvm.st = .waiting then d.finishStore r 2#4 0x0017 0
    else if !d.nvm.localStore && !d.crosscutUp && d.bellUp && !d.link.bell.storeData then d
    else if !readBackOk then
      (d.report r.home (unitReport 0x6B 0x6A nvmP)).finishStore r 3#4 0x0020 0x0101
    else if d.nvm.localStore then
      ((d.commitBank r.home).modNvm fun n => { n with divergent := true }).finishStore r 1#4 0 0
    else
      let linked := d.crosscutUp || d.bellUp
      let d := d.commitBank .a
      let d := if linked then (d.commitBank .b).modNvm fun n => { n with divergent := false } else d
      d.finishStore r 1#4 0 0

def execStoreComplete (readBackOk : Bool) (s : State) : Host.Outcome State Fault Refusal :=
  runOn s fun d => ((d.storeDone readBackOk).beginRetrain .a).beginRetrain .b

/-- A write of NVM[0].REQ: bit 0 asks for a STORE, bit 1 for FORCE_LOCAL (R320). -/
def Device.storeRegister (d : Device) (m : Master) (v : W32) : Device :=
  if bit v 0 then d.requestStore { force := bit v 1, home := homeOf m } else d

/-! ## ARB_ADVANCE (R309) -/

/-- The security version of the running image; none serves: none. -/
def Device.runningVersion (d : Device) : Option Nat :=
  if d.serving .a then some (d.ovman .a).version
  else if d.serving .b then some (d.ovman .b).version
  else none

/-- Program the counters of some halves to v. A fuse that does not verify leaves a count that no rule states: a free value
between the old count and v. -/
def Device.programFuses (d : Device) (hs : List Half) (v : Nat) (verified : Bool) : Device :=
  let put (d : Device) (h : Half) (n : Nat) : Device :=
    { d with deputy := { d.deputy with fuseCount := tset 0 h.idx n d.deputy.fuseCount } }
  if verified then d.each hs fun d h => put d h v
  else
    let d := d.each hs fun d h =>
      let old := d.fuseOf h
      let (w, d) := d.fresh
      put d h (old + w.toNat % (v - old + 1))
    d.report (hs.headD .a) (unitReport 0x6B 0x68 depP 0x44)

/-- ARB_ADVANCE with value v from a half. -/
def Device.arbAdvance (d : Device) (home : Half) (v : Nat) (verified : Bool) : Device :=
  let fits := d.runningVersion.any fun n => decide (v ≤ n)
  let hs : List Half := if d.apart && !d.bellUp then [home] else bothHalves
  if fits ∧ v ≤ 64 ∧ d.effectiveFuse < v then d.programFuses hs v verified else d

end Sys2Proof.Machine
end

