-- ==== Sys2Proof/Machine/Packets.lean ====
section
/-! DEFINITION. The packets: requests and sessions (R263-R277, R288), loads (R224-R231), Overman images (R307, R308),
CONFIG and its keys (R294, R302, R303), and the service telemetry (R295). -/

namespace Sys2Proof.Machine

/-! ## The oldest packet of a queue -/

/-- BAD_PACKET with a content detail (R254). -/
def Device.bad (d : Device) (q : Nat) (p : Packet) (detail : Nat) : Device := d.refuse q p 0x0011 detail

/-- The server of the queue takes its oldest accepted packet if it satisfies a test, checks its content, and acts on it. -/
def Device.takePacket (d : Device) (q : Nat) (want : Packet → Bool) (act : Device → Packet → Device) : Device :=
  let x := d.queue q
  match x.inbox with
  | [] => d
  | p :: rest =>
    if (x.st ≠ .active ∧ x.st ≠ .held) ∨ d.serverOf q = .nobody ∨ !want p then d
    else
      let d := d.setQueue q { x with inbox := rest }
      let c := p.content q (d.serverOf q == .deputy)
      if c ≠ 0 then d.bad q p c else act d p

/-- The oldest packet by its opcode. -/
def Device.onOp (d : Device) (q op : Nat) (act : Device → Packet → Device) : Device :=
  d.takePacket q (·.op == op) act

/-- Who is answered for a packet. -/
def Packet.asker (p : Packet) (q : Nat) (lode : W16 := 0xFFFF#16) : Asker := { queue := q, seq := p.seq, padded := p.padded, lode }

/-! ## Header values (R265, R272) -/

/-- A session is open for new work of a queue: it is the queue's own and no SESSION_CLOSE waits for it. -/
def Device.sessionOpen (d : Device) (q : Nat) (ident : W32) : Bool :=
  (d.findSession ident).any (fun s => s.queue == q) && !(d.service.closings.any fun c => c.session == ident)

/-- The slot names a RESIDENT lode. -/
def Device.resident (d : Device) (l : Nat) : Bool := decide (l < 64) && (d.lode l).st == .resident

/-- The first header value that R272 turns away: status and detail. `lodeOk` and `sessOk` are the table's values; `open_`: the table
asks for an open session. -/
def Device.headerFault (d : Device) (q : Nat) (p : Packet) (lodeOk sessOk : Bool) (open_ : Bool := false) : Option (Nat × Nat) :=
  if p.lode < 64 ∧ !d.resident p.lode then some (0x0013, 0)
  else if (open_ ∨ p.session ≠ 0#32) ∧
      !(d.sessionOpen q p.session && (decide (64 ≤ p.lode) || (d.findSession p.session).any fun s => s.lode == p.lode)) then
    some (0x0014, 0)
  else if !lodeOk || !sessOk then some (0x0011, 0x14)
  else none

/-- Every token is below the vocabulary size. -/
def tokensBelow (v : Nat) (ts : List W32) : Bool := ts.all fun t => decide (t.toNat < v)

/-- n 32-bit words from byte lo of a packet. -/
def Packet.words (p : Packet) (lo n : Nat) : List W32 := (List.range n).map fun i => w32 (fieldAt p.bytes (lo + 4 * i) 4)

/-! ## REQUEST (R264, R266, R271-R274, R282) -/

/-- The payload rules of R264 and R273. -/
def requestOk (p : Packet) (vocab : Nat) : Bool :=
  let b := p.bytes
  let n := fieldAt b 36 4
  let mode := fieldAt b 40 1
  let s := fieldAt b 41 1
  let k := fieldAt b 42 2
  let pw := fieldAt b 44 4
  let temp := fieldAt b 48 4
  let maxNew := fieldAt b 32 4
  let useK : Bool := mode == 1 || mode == 3
  let useP : Bool := mode == 2 || mode == 3
  decide (1 ≤ maxNew ∧ maxNew ≤ 65535 ∧ mode ≤ 3 ∧ s ≤ 8)
    && (if useK then decide (1 ≤ k) else k == 0)
    && (if useP then decide (1 ≤ pw ∧ pw ≤ 0x3F800000) else pw == 0)
    && (mode == 0 || decide (1 ≤ temp ∧ temp < 0x7F800000))
    && !(n == 0 && p.session == 0#32)
    && tokensBelow vocab (p.words 96 n) && tokensBelow vocab (p.words 64 s)
    && zerosAt b (64 + 4 * s) (4 * (8 - s))

/-- The conditions under which a request is served in class SHORT (R282). -/
def Device.shortOk (d : Device) (l : Nat) (p : Packet) : Bool :=
  let x := d.lode l
  decide (x.size ≤ 32 * 2 ^ 20) && !x.spans && x.tensors.all (·.cls == 0)
    && decide (fieldAt p.bytes 36 4 ≤ 64) && fieldAt p.bytes 32 4 == 1 && !p.more

/-- The request of a REQUEST packet. -/
def Device.requestOf (d : Device) (q : Nat) (p : Packet) : Request :=
  let b := p.bytes
  { queue := q, tag := p.seq, st := if p.more then .input else .waiting
    cls := if p.cls = 0 ∧ !d.shortOk p.lode p then 1 else p.cls
    lode := p.lode, session := p.session, maxNew := fieldAt b 32 4
    mode := BitVec.ofNat 8 (fieldAt b 40 1), k := fieldAt b 42 2, p := w32 (fieldAt b 44 4), temp := w32 (fieldAt b 48 4)
    seed := BitVec.ofNat 64 (fieldAt b 52 8), stops := p.words 64 (fieldAt b 41 1), input := p.words 96 (fieldAt b 36 4)
    stream := p.stream, padded := p.padded, accepted := p.accepted
    half := ((d.findSession p.session).map (·.half)).getD .a }

/-- Canary holds a half of the lode, or the queue's, in the safe state (R332). -/
def Device.haltsLode (d : Device) (q l : Nat) : Bool :=
  (queHalf q :: (d.lode l).halves).any fun h => (d.canary h).safe

/-- STATUS OK of a packet with NOTIFY, for a request (R266). -/
def Device.notifyOk (d : Device) (r : Request) (seq : W32) : Device :=
  d.pushFor r false (statusPkt (d.stamp r.queue) seq 0 0 0 0)

def Device.takeRequest (d : Device) (q : Nat) (p : Packet) : Device :=
  if p.len ≠ 96 + 4 * fieldAt p.bytes 36 4 then d.bad q p 0x11
  else if !zerosAt p.bytes 60 4 then d.bad q p 0x12
  else match d.headerFault q p (d.resident p.lode) true with
    | some (code, detail) => d.refuse q p code detail
    | none =>
      if d.apart && d.crossesLink q p.lode then d.refuse q p 0x0021 0
      else if !requestOk p (d.lode p.lode).vocab then d.bad q p 0x14
      else if d.haltsLode q p.lode then d.refuse q p 0x0020 0
      else
        let r := d.requestOf q p
        let d := d.modRequests (· ++ [r])
        if p.notify then d.notifyOk r p.seq else d

def execRequest (q : Fin 1024) (s : State) : Host.Outcome State Fault Refusal :=
  runOn s fun d => d.onOp q 0x01 fun d p => d.takeRequest q p

/-! ## CONTINUE (R266, R271, R274) -/

def Device.takeContinue (d : Device) (q : Nat) (p : Packet) : Device :=
  let n := fieldAt p.bytes 36 4
  if p.len ≠ 48 + 4 * n then d.bad q p 0x11
  else if !zerosAt p.bytes 40 8 then d.bad q p 0x12
  else match (d.findRequest q (w32 (fieldAt p.bytes 32 4))).filter fun r => r.st == .input with
    | none => d.bad q p 0x14
    | some r =>
      match d.headerFault q p (p.lode == r.lode) (p.session == r.session) with
      | some (code, detail) => d.refuse q p code detail
      | none =>
        if !tokensBelow (d.lode r.lode).vocab (p.words 48 n) then d.bad q p 0x14
        else
          let r' := { r with input := r.input ++ p.words 48 n, st := if p.more then .input else .waiting }
          let d := (d.putRequest r').freeCredit q p.padded
          if p.notify then d.pushOut q (({ r' with answered := true }).head false (statusPkt (d.stamp q) p.seq 0 0 0 0)) else d

def execContinuePacket (q : Fin 1024) (s : State) : Host.Outcome State Fault Refusal :=
  runOn s fun d => d.onOp q 0x02 fun d p => d.takeContinue q p

/-! ## CANCEL and SESSION_CLOSE (R277, R288) -/

/-- End some requests of a queue as CANCEL does, and answer once the last of them has ended; `session` is the session a
SESSION_CLOSE closes then. -/
def Device.cancelAll (d : Device) (q : Nat) (p : Packet) (pick : Request → Bool) (session : W32) : Device :=
  let targets := d.service.requests.filter fun r => r.queue == q && pick r
  let c : Closing := { asker := p.asker q, waits := targets.map (·.tag), session }
  let d := { d with service := { d.service with closings := d.service.closings ++ [c] } }
  let d := d.modRequests fun rs => rs.map fun r =>
    if r.queue = q ∧ pick r ∧ r.st = .running then { r with marked := true } else r
  (d.each (targets.filter fun r => r.st != .running) fun d r => d.endRequest r 0x0002 0).settleClosings

def Device.takeCancel (d : Device) (q : Nat) (p : Packet) : Device :=
  let tag := w32 (fieldAt p.bytes 32 4)
  let all := tag == 0xFFFFFFFF#32
  if !zerosAt p.bytes 36 4 then d.bad q p 0x12
  else match d.headerFault q p (p.lode == 0xFFFF) ((p.session == 0#32) != all) all with
    | some (code, detail) => d.refuse q p code detail
    | none => d.cancelAll q p (fun r => if all then r.session == p.session else r.tag == tag) 0#32

def execCancel (q : Fin 1024) (s : State) : Host.Outcome State Fault Refusal :=
  runOn s fun d => d.onOp q 0x03 fun d p => d.takeCancel q p

def Device.takeClose (d : Device) (q : Nat) (p : Packet) : Device :=
  match d.headerFault q p (p.lode == 0xFFFF) true true with
  | some (code, detail) => d.refuse q p code detail
  | none => d.cancelAll q p (fun r => r.session == p.session) p.session

def execSessionClose (q : Fin 1024) (s : State) : Host.Outcome State Fault Refusal :=
  runOn s fun d => d.onOp q 0x05 fun d p => d.takeClose q p

/-! ## SESSION_OPEN (R229, R275) -/

/-- The next session identifier: the first unused nonzero value from a free word on (DESIGN CHOICE, LOG 7). -/
def Device.newIdent (d : Device) : W32 × Device :=
  let (w, d) := d.fresh
  let used := d.service.usedIds
  let ok (v : W32) : Bool := v != 0#32 && !used.contains v
  (((List.range (used.length + 2)).map fun i => w + w32 i).find? ok |>.getD 0#32, d)

def Device.takeOpen (d : Device) (q : Nat) (p : Packet) : Device :=
  if !zerosAt p.bytes 36 4 then d.bad q p 0x12
  else match d.headerFault q p (d.resident p.lode) (p.session == 0#32) with
    | some (code, detail) => d.refuse q p code detail
    | none =>
      let l := p.lode
      let tier := d.contextTier l
      if d.apart && d.crossesLink q l then d.refuse q p 0x0021 0
      else if 65536 ≤ d.service.sessions.length then d.refuse q p 0x0010 1
      else if tier = 0 then d.refuse q p 0x0010 2
      else
        let half := d.contextHalf l
        let (ident, d) := d.newIdent
        let s : Session := { ident, queue := q, lode := l, half, inSeam := tier == 1 }
        let d := d.modSessions (· ++ [s])
        let d := { d with service := { d.service with usedIds := ident :: d.service.usedIds } }
        let out : OutPkt := { statusPkt (d.stamp q) p.seq 0 0 (tier - 1) (fieldAt p.bytes 32 4) with
          session := ident, lode := BitVec.ofNat 16 l }
        (d.pushOut q out).freeCredit q p.padded

def execSessionOpen (q : Fin 1024) (s : State) : Host.Outcome State Fault Refusal :=
  runOn s fun d => d.onOp q 0x04 fun d p => d.takeOpen q p

/-! ## Loads (R224-R231) -/

/-- Answer a load packet; the lode field names its slot. -/
def Device.answerLode (d : Device) (q : Nat) (p : Packet) (code detail : Nat) : Device :=
  d.answerAsker (some (p.asker q (BitVec.ofNat 16 p.lode))) code detail 0 0

/-- The domains a lode of some halves needs: MEM and SEAM of each, and the crosscut for a spanning one (R227, R230). -/
def Device.loadDomains (d : Device) (hs : List Half) : Bool :=
  hs.all (fun h => d.isOn (memPart h) && d.isOn (seamPart h)) && (hs.length < 2 || (d.isOn 6 && d.isOn 8))

/-- A half's share of an image (R225). -/
def halfShare (size : Nat) (hs : List Half) : Nat := if hs.isEmpty then 0 else (size + hs.length - 1) / hs.length

def Device.takeLoadBegin (d : Device) (q : Nat) (p : Packet) : Device :=
  let l := p.lode
  let head := slice p.bytes 32 64
  let hs := halvesOf (fieldAt head 6 1)
  let size := fieldAt head 8 8
  let crossing := hs.any fun h => h != queHalf q
  let share := halfShare size hs
  if 64 ≤ l then d.bad q p 0x14
  else if (d.lode l).st ≠ .empty then d.answerLode q p 0x0010 3
  else if d.apart && crossing then d.answerLode q p 0x0021 0
  else if !d.loadDomains hs then d.answerLode q p 0x0010 4
  else if !(hs.all fun h => decide (share ≤ d.freeDram h)) then d.answerLode q p 0x0010 2
  else
    let d := d.setLode l
      { st := .loading, halves := hs, size, image := putBytes [] 0 head
        dram := hs.foldl (fun (t : Tab Nat) h => tset 0 h.idx share t) [] }
    d.answerLode q p 0 0

def execLoadBegin (q : Fin 1024) (s : State) : Host.Outcome State Fault Refusal :=
  runOn s fun d => d.onOp q 0x10 fun d p => d.takeLoadBegin q p

/-- The slot of a load packet is LOADING. -/
def Device.loadingSlot (d : Device) (l : Nat) : Bool := decide (l < 64) && (d.lode l).st == .loading

def Device.takeLoadData (d : Device) (q : Nat) (p : Packet) : Device :=
  let l := p.lode
  let off := fieldAt p.bytes 32 8
  let data := p.bytes.drop 48
  if !zerosAt p.bytes 40 8 then d.bad q p 0x12
  else if !d.loadingSlot l || off % 64 != 0 || decide ((d.lode l).size < off + data.length) then d.bad q p 0x14
  else (d.modLode l fun x => { x with image := putBytes x.image off data }).answerLode q p 0 0

def execLoadData (q : Fin 1024) (s : State) : Host.Outcome State Fault Refusal :=
  runOn s fun d => d.onOp q 0x11 fun d p => d.takeLoadData q p

/-- A list as a table by position. -/
def tabOf {α : Type} [DecidableEq α] (x : α) (xs : List α) : Tab α := xs.zipIdx.foldl (fun (t : Tab α) e => tset x e.2 e.1 t) []

/-- A lode whose image passed its checks: its parts are read, and it waits for placement (R223, R227). -/
def Lode.parsed (x : Lode) (asker : Asker) : Lode :=
  let ps := imageParts x.image
  { x with
    st := .placing, asker := some asker
    stepNs := ps.head.stepNs, ctxKiB := ps.head.ctxKiB, vocab := ps.head.vocab, ctxCap := ps.head.ctxCap
    tensors := ps.tensors
    streams := tabOf {} ps.streams
    programs := ps.programs.zipIdx.map fun (g, i) => (i, g)
    costs := ps.costs.foldl (fun (t : Tab Nat) c => tset 0 c.1 c.2 t) [] }

def Device.takeLoadEnd (d : Device) (q : Nat) (p : Packet) : Device :=
  let l := p.lode
  if !d.loadingSlot l then d.bad q p 0x14
  else
    let x := d.lode l
    let c := imageCheck x.image
    if c ≠ 0 then (d.releaseLode l).answerLode q p 0x0015 c
    -- a spanning lode cannot be placed without the crosscut (R230; DEDUCED, LOG 76)
    else if d.apart ∧ x.spans then (d.releaseLode l).answerLode q p 0x0021 0
    else
      let d := d.setLode l (x.parsed (p.asker q (BitVec.ofNat 16 l)))
      { d with compute := { d.compute with placing := d.compute.placing ++ [l] } }

def execLoadEnd (q : Fin 1024) (s : State) : Host.Outcome State Fault Refusal :=
  runOn s fun d => d.onOp q 0x12 fun d p => d.takeLoadEnd q p

/-- LODE_PLACED: the oldest lode in PLACING is placed, or released with CAPACITY; an UNLOAD that came meanwhile follows
(R227, R228, R231). -/
def Device.lodePlaced (d : Device) (l : Nat) : Device :=
  if d.compute.placing.head? ≠ some l ∨ (d.lode l).st ≠ .placing then d
  else
    let x := d.lode l
    let d := { d with compute := { d.compute with placing := d.compute.placing.drop 1 } }
    match d.placeLode l with
    | .inl detail => ((d.releaseLode l).answerAsker x.asker 0x0010 detail 0 0).answerAsker x.unloadAsker 0 0 0 0
    | .inr y =>
      let y := { y with programs := d.assignBays y.programs, unloadAsker := none }
      let d := d.setLode l y.freshStreams
      let d := if y.demoted = 0 then d.answerAsker x.asker 0 0 0 0
        else d.answerAsker x.asker 0x0001 0 y.demoted y.derate
      match x.unloadAsker with
      | none => d
      | some a => d.startUnload l (some a)

def execLodePlaced (slot : Fin 64) (s : State) : Host.Outcome State Fault Refusal := runOn s fun d => d.lodePlaced slot

def Device.takeUnload (d : Device) (q : Nat) (p : Packet) : Device :=
  let l := p.lode
  let a := p.asker q (BitVec.ofNat 16 l)
  if 64 ≤ l then d.bad q p 0x14
  else match (d.lode l).st with
    | .empty | .unloading => d.answerLode q p 0x0013 0
    | .loading => (d.releaseLode l).answerLode q p 0 0
    | .placing =>
      if (d.lode l).unloadAsker.isSome then d.answerLode q p 0x0013 0
      else d.modLode l fun x => { x with unloadAsker := some a }
    | .resident => d.startUnload l (some a)

def execUnload (q : Fin 1024) (s : State) : Host.Outcome State Fault Refusal :=
  runOn s fun d => d.onOp q 0x13 fun d p => d.takeUnload q p

/-! ## Overman images (R264, R307, R308) -/

def Device.takeFwBegin (d : Device) (q : Nat) (p : Packet) : Device :=
  let size := fieldAt p.bytes 32 8
  if !zerosAt p.bytes 40 8 then d.bad q p 0x12
  else if size = 0 ∨ fwMax < size then d.bad q p 0x14
  else if d.serverOf q ≠ .deputy then d.answer q p 0x0016 0x01
  else d.beginLoad q p size

def execFwBegin (q : Fin 1024) (s : State) : Host.Outcome State Fault Refusal :=
  runOn s fun d => d.onOp q 0x20 fun d p => d.takeFwBegin q p

def execFwData (q : Fin 1024) (s : State) : Host.Outcome State Fault Refusal :=
  runOn s fun d => d.onOp q 0x21 fun d p =>
    if !zerosAt p.bytes 40 8 then d.bad q p 0x12
    else d.loadData q p (fieldAt p.bytes 32 8) (p.bytes.drop 48)

def execFwEnd (q : Fin 1024) (s : State) : Host.Outcome State Fault Refusal :=
  runOn s fun d => d.onOp q 0x22 fun d p => d.endLoad q p

/-! ## CONFIG (R294, R302-R304) -/

/-- Items of a CONFIG packet. -/
def Packet.items (p : Packet) : List (Nat × Nat) := (List.range (fieldAt p.bytes 32 2)).map p.item

/-- The value of a key lies in its range and its other bits are 0 (R294, R303). -/
def keyRange (key v : Nat) : Bool :=
  let rail := v / 2 ^ 16
  let low := v % 2 ^ 16
  match key with
  | 1 | 2 => decide (rail < 12 ∧ 120 ≤ low ∧ low ≤ 480)
  | 3 => decide (rail < 12 ∧ 1 ≤ low ∧ low ≤ 160 * (railClusters rail).length)
  | 4 => decide (650 ≤ v ∧ v ≤ 900)
  | 5 => decide (100 ≤ v ∧ v ≤ 115)
  | 6 => decide (v < 256) && v.testBit 2 && v.testBit 3 && v.testBit 7
  | 7 => decide (10 ≤ v ∧ v ≤ 1000)
  | 8 => decide (v < 2)
  | 0x10 =>
    decide (v < 2 ^ 13) && (allClasses.find? fun c => c.code == v % 256).any fun c => c != .tmb && c != .dep && c != .canj
  | 0x11 => decide (v / 256 < 128 ∧ v % 256 < 8 ∧ 0x08 ≤ v / 256 ∧ v / 256 ≤ 0x77)
  | 0x100 => decide (v < 2)
  | 0x101 => decide (1 ≤ v ∧ v ≤ 64)
  | 0x200 | 0x201 | 0x202 | 0x203 => decide (1 ≤ v ∧ v ≤ 255)
  | 0x204 | 0x207 => decide (16 ≤ v ∧ v ≤ 4096)
  | 0x205 => decide (1 ≤ v ∧ v ≤ 1024)
  | 0x206 => decide (64 ≤ v ∧ v ≤ 65536)
  | 0x208 => decide (10 ≤ v ∧ v ≤ 2000)
  | 0x209 => decide (1 ≤ v ∧ v ≤ 1000)
  | _ => false

/-- Live set-points of a rail that VMIN and VMAX bound (R301, first row). -/
def Device.liveCodes (d : Device) (r : Nat) : List Nat :=
  (railClusters r).map (fun n => d.clu n 0x40 % 512) ++ [0x40, 0xA4, 0xA8].map fun o => d.ral r o % 512

/-- A change that the live state would breach (R302). -/
def Device.breaches (d : Device) (key v : Nat) : Bool :=
  let live := d.liveCodes (v / 2 ^ 16)
  match key with
  | 1 => live.any fun c => decide (c < v % 512)
  | 2 => live.any fun c => decide (v % 512 < c)
  | 4 => decide (v < d.cp .a (govP .a) 0x5C % 1024)
  | 5 => bothHalves.any fun h => [0, 1, 2].any fun g => decide ((v : Int) < d.threshold h 4 g)
  | _ => false

/-- The detail an item fails with; 0 when it is accepted. `boot`: Deputy serves the queue. -/
def Device.itemDetail (d : Device) (q : Nat) (boot last : Bool) (key v : Nat) : Nat :=
  if !configKeys.contains key then 0x14
  else if 0x200 ≤ key then
    (if !isControl q then 0x14 else if boot then 0x15 else if keyRange key v then 0 else 0x14)
  else if key < 0x100 then
    (if !boot then 0x15 else if keyRange key v && !d.breaches key v then 0 else 0x14)
  else if key = 0x101 ∧ boot then 0x15
  else if keyRange key v && (key != 0x100 || last) then 0 else 0x14

/-- The first bad item: its index and detail. -/
def Device.badItem (d : Device) (q : Nat) (boot : Bool) (items : List (Nat × Nat)) : Option (Nat × Nat) :=
  items.zipIdx.findSome? fun (e, i) =>
    let c := d.itemDetail q boot (i + 1 == items.length) e.1 e.2
    if c = 0 then none else some (i, c)

/-- PSEQ of the pages a Deputy key writes (R27): the DEP page for an envelope, every page of the class for POWN. -/
def Device.keySeq (d : Device) (hs : List Half) (key v : Nat) : Device :=
  if 1 ≤ key ∧ key ≤ 6 then d.each hs fun d h => d.bumpSeq h depP
  else if key = 0x10 then d.each (pownPages hs v) fun d (p, hs) => d.each hs fun d h => d.bumpSeq h p
  else d

/-- The halves whose copies a queue's CONFIG keys write (R22). -/
def Device.keyHalves (d : Device) (q : Nat) : List Half := if d.apart then [queHalf q] else bothHalves

/-- One accepted item takes effect. The fuses' verification is the block's surroundings': `verified` where the command says,
a free bit elsewhere (R309; DESIGN CHOICE, LOG 7). -/
def Device.applyItem (d : Device) (q : Nat) (p : Packet) (verified : Option Bool) (key v : Nat) : Device :=
  let hs := d.keyHalves q
  if key = 0x100 then d.requestStore { force := v == 1, home := queHalf q, askers := [p.asker q] }
  else if key = 0x101 then
    (match verified with
      | some b => d.arbAdvance (queHalf q) v b
      | none =>
        let (w, d) := d.fresh
        d.arbAdvance (queHalf q) v (bit w 0))
  else (d.setKey hs key v).keySeq hs key v

/-- The items of an accepted packet, in order; `verified` belongs to the first. -/
def Device.applyItems (d : Device) (q : Nat) (p : Packet) (verified : Option Bool) : List (Nat × Nat) → Device
  | [] => d
  | (key, v) :: rest => (d.applyItem q p verified key v).applyItems q p none rest

/-- An envelope write waits while a transaction is between its check boundary and its application (R42). -/
def Device.envelopesHeld (d : Device) : Bool :=
  d.txn.slots.any fun e => e.2.phase == .checked || e.2.phase == .gone

/-- A CONFIG packet takes effect whole or not at all. The result of a STORE answers it; else OK does. -/
def Device.takeConfig (d : Device) (q : Nat) (p : Packet) (verified : Option Bool) : Device :=
  let items := p.items
  let boot := d.serverOf q == .deputy
  if p.len ≠ 40 + 8 * fieldAt p.bytes 32 2 then d.bad q p 0x11
  else if !zerosAt p.bytes 34 6 then d.bad q p 0x12
  else match d.badItem q boot items with
    | some (i, detail) => d.answer q p 0x0011 detail i
    | none =>
      let d := d.applyItems q p verified items
      if items.any fun e => e.1 == 0x100 then d else d.answer q p 0 0

/-- A key's writes are held: an envelope's in any commit window, POWN's while one of its pages is locked (R42). -/
def Device.keyHeld (d : Device) (hs : List Half) (e : Nat × Nat) : Bool :=
  (decide (1 ≤ e.1 ∧ e.1 ≤ 6) && d.envelopesHeld)
    || (e.1 == 0x10 && (pownPages hs e.2).any fun (p, hs) => hs.any fun h => d.pageLocked h p)

/-- The oldest packet of a queue, if it is a CONFIG whose first key is this one. One with a write that is held stays. -/
def Device.onConfig (d : Device) (q key : Nat) (verified : Option Bool := none) : Device :=
  let want (p : Packet) : Bool :=
    p.op == 0x30 && (p.item 0).1 == key
      && !p.items.any (d.keyHeld (d.keyHalves q))
  d.takePacket q want fun d p => d.takeConfig q p verified

def execEnvVmin (q : Fin 1024) (s : State) : Host.Outcome State Fault Refusal := runOn s fun d => d.onConfig q 1
def execEnvVmax (q : Fin 1024) (s : State) : Host.Outcome State Fault Refusal := runOn s fun d => d.onConfig q 2
def execEnvImax (q : Fin 1024) (s : State) : Host.Outcome State Fault Refusal := runOn s fun d => d.onConfig q 3
def execEnvPceil (q : Fin 1024) (s : State) : Host.Outcome State Fault Refusal := runOn s fun d => d.onConfig q 4
def execEnvTtrip (q : Fin 1024) (s : State) : Host.Outcome State Fault Refusal := runOn s fun d => d.onConfig q 5
def execEnvDommask (q : Fin 1024) (s : State) : Host.Outcome State Fault Refusal := runOn s fun d => d.onConfig q 6
def execOvmWdtime (q : Fin 1024) (s : State) : Host.Outcome State Fault Refusal := runOn s fun d => d.onConfig q 7
def execOvmRestart (q : Fin 1024) (s : State) : Host.Outcome State Fault Refusal := runOn s fun d => d.onConfig q 8
def execKeyPown (q : Fin 1024) (s : State) : Host.Outcome State Fault Refusal := runOn s fun d => d.onConfig q 0x10
def execKeyPmbusAddr (q : Fin 1024) (s : State) : Host.Outcome State Fault Refusal := runOn s fun d => d.onConfig q 0x11
def execWeightShort (q : Fin 1024) (s : State) : Host.Outcome State Fault Refusal := runOn s fun d => d.onConfig q 0x200
def execWeightInteractive (q : Fin 1024) (s : State) : Host.Outcome State Fault Refusal :=
  runOn s fun d => d.onConfig q 0x201
def execWeightBulk (q : Fin 1024) (s : State) : Host.Outcome State Fault Refusal := runOn s fun d => d.onConfig q 0x202
def execWeightBackground (q : Fin 1024) (s : State) : Host.Outcome State Fault Refusal :=
  runOn s fun d => d.onConfig q 0x203
def execQuantum (q : Fin 1024) (s : State) : Host.Outcome State Fault Refusal := runOn s fun d => d.onConfig q 0x204
def execBatchmax (q : Fin 1024) (s : State) : Host.Outcome State Fault Refusal := runOn s fun d => d.onConfig q 0x205
def execSteptok (q : Fin 1024) (s : State) : Host.Outcome State Fault Refusal := runOn s fun d => d.onConfig q 0x206
def execPrefillchunk (q : Fin 1024) (s : State) : Host.Outcome State Fault Refusal := runOn s fun d => d.onConfig q 0x207
def execCapdelta (q : Fin 1024) (s : State) : Host.Outcome State Fault Refusal := runOn s fun d => d.onConfig q 0x208
def execTeleperiod (q : Fin 1024) (s : State) : Host.Outcome State Fault Refusal := runOn s fun d => d.onConfig q 0x209

/-- STORE by a CONFIG packet or by a write of NVM[0].REQ (R304, R318, R320). -/
def execStore (src : KeySource) (s : State) : Host.Outcome State Fault Refusal :=
  runOn s fun d => match src with
    | .packet q => d.onConfig q 0x100
    | .register m v => d.guarded m nvmP 0x40 v fun d => (true, d.storeRegister m v)

/-- ARB_ADVANCE by a CONFIG packet or by a write of NVM[0].ARBREQ (R304, R309, R320). -/
def execArbAdvance (src : KeySource) (verified : Bool) (s : State) : Host.Outcome State Fault Refusal :=
  runOn s fun d => match src with
    | .packet q => d.onConfig q 0x101 (some verified)
    | .register m v => d.guarded m nvmP 0x58 v fun d => (true, d.arbAdvance (homeOf m) (fld v 6 0) verified)

/-! ## Telemetry (R295) -/

/-- The 22 registers of the telemetry from 0x400 on. -/
def Device.telemetry (d : Device) (h : Half) : List W32 :=
  let v := d.service
  let count (c : Nat) (st : ReqState) : W32 := w32 (v.requests.filter fun r => r.cls == c && r.st == st).length
  let lat (c : Nat) : W32 :=
    let n := tget 0 v.latCount c
    if n = 0 then 0#32 else w32 ((tget 0#64 v.latSum c).toNat / n)
  let t := d.tb h
  [w32 (v.capacity % 2 ^ 16), w32 v.sessions.length, w32 v.requests.length,
    w32 (d.host.queues.filter fun e => e.2.saturated).length]
  ++ [0, 1, 2, 3].flatMap (fun c => [count c .waiting, count c .running, tget 0#32 v.tokens c, lat c])
  ++ [t.setWidth 32, (t >>> 32).setWidth 32]

/-- TELEMETRY_UPDATE: time passes to the next multiple of TELEPERIOD, and Overman writes the copies it reaches. -/
def Device.telemetryUpdate (d : Device) : Device :=
  match bothHalves.filter d.serving with
  | [] => d
  | h :: rest =>
    let d := d.advanceGrid h (d.service.policy.telePeriod * ms)
    let ws := d.telemetry h
    let hs := if d.apart then h :: rest else bothHalves
    let d := d.each hs fun d k => d.each ws.zipIdx fun d (w, i) => (d.setReg k ovmP (0x400 + 4 * i) w).bumpSeq k ovmP
    { d with service := { d.service with latSum := [], latCount := [] } }

def execTelemetryUpdate (s : State) : Host.Outcome State Fault Refusal := runOn s Device.telemetryUpdate

end Sys2Proof.Machine
end

