-- ==== Sys2Proof/Machine/LinkFam.lean ====
section
/-! DEFINITION. The commands of the crosscut and the bell line: repairs, failures, frames, retrains (R363-R373). -/

namespace Sys2Proof.Machine

/-- A report of a crosscut end (unit 0x069). -/
def linkReport (h : Half) (kind : Nat) (off : Nat := 0x40) (detail : Nat := 0) : Report :=
  { unitReport 0x69 kind (lnkP h) off detail with access := 5 }

def Device.modLink (d : Device) (h : Half) (f : LinkEnd → LinkEnd) : Device := d.setLinkEnd h (f (d.linkEnd h))

/-! ## Replays and repairs (R363-R365) -/

/-- A flit's CRC failed at Half h: a replay; the eighth failed replay in a row is retry exhaustion. An armed injection of the
receiver is used up by the failure it makes (R335). -/
def Device.crcRetry (d : Device) (h : Half) (replayFailed : Bool) : Device :=
  if (d.linkEnd h).st ≠ .up then d
  else
    let inj := d.armedFor h 0x69 0
    let d := if inj.isSome then d.consumeInjection h else d
    let n := if replayFailed then (d.linkEnd h).failedReplays + 1 else 0
    let d := d.modLink h fun e => { e with replays := satInc e.replays, failedReplays := n }
    let d := (d.perr .a (lnkP h) 2).report h { linkReport h 0x71 0x48 with injected := inj.isSome }
    if n < 8 then d else d.linkFailure h 2 0x72

/-- Spares in use on an end's receive lanes (SPARES, R379). -/
def LinkEnd.spares (e : LinkEnd) : Nat := (e.bundles.filter (·.2.used)).length

/-- A lane of a bundle fails at Half h's receiver: its spare takes over; a second one in a bundle cannot be repaired. -/
def Device.laneRepair (d : Device) (h : Half) (b : Nat) (lane : BitVec 6) : Device :=
  let e := d.linkEnd h
  let x : Bundle := tget {} e.bundles b
  if (e.st ≠ .up ∧ e.st ≠ .training) ∨ 40 ≤ lane.toNat then d
  else if x.used then
    let d := d.modLink h fun e => { e with bundles := tset {} b { x with second := true } e.bundles }
    if e.st = .up then d.linkFailure h 2 0x72 else d
  else
    let d := d.modLink h fun e =>
      { e with bundles := tset {} b { x with used := true, lane } e.bundles, repairs := e.repairs + 1#16 }
    let d := (d.perr .a (lnkP h) 1).report h (linkReport h 0x70 (0x60 + 4 * b) lane.toNat)
    let e := d.linkEnd h
    if e.lowSeen ∨ e.spares < fld (d.reg .a (lnkP h) 0x54) 6 0 then d
    else ((d.modLink h fun e => { e with lowSeen := true }).perr .a (lnkP h) 16).report h (linkReport h 0x75 0x44)

/-- No valid flit for 2 µs. -/
def Device.tallyTimeout (d : Device) (h : Half) : Device :=
  if (d.linkEnd h).st = .up then d.linkFailure h 1 0x73 else d

/-! ## Frames (R366, R368) -/

def execHeartbeat (h : Half) (s : State) : Host.Outcome State Fault Refusal := runOn s fun d => d.bellFrame h

def Device.modBell (d : Device) (f : Bell → Bell) : Device := { d with link := { d.link with bell := f d.link.bell } }

/-- SPLIT_REQ of the detecting half reaches the other Deputy: the senior enters SPLIT and sends SPLIT_GO; a half already in
SPLIT does nothing more. -/
def Device.splitRequest (d : Device) (h : Half) (reason : Byte) : Device :=
  if d.link.bell.splitReq ≠ some h then d
  else
    let d := (d.modBell fun b => { b with splitReq := none }).bellFrame h.other
    if h = .b then d.enterSplit .a reason.toNat .failed else d

/-- SPLIT_GO reaches Deputy B: the junior enters SPLIT where it has not, and answers. -/
def Device.splitGoArrives (d : Device) : Device :=
  if !d.link.bell.splitGo then d
  else
    let d := (d.modBell fun b => { b with splitGo := false }).bellFrame .b
    let d :=
      if (d.linkEnd .b).mode = .joined then
        (d.enterSplit .b (d.linkEnd .a).reason.toNat .failed).modBell fun b => { b with splitReq := none }
      else d
    d.modBell fun b => { b with splitAck := true }

/-- SPLIT_ACK reaches Deputy A: SPLIT is agreed. -/
def Device.splitAckArrives (d : Device) : Device :=
  if !d.link.bell.splitAck then d
  else
    let d := (d.modBell fun b => { b with splitAck := false }).bellFrame .a
    if d.apart then (d.modLink .a fun e => { e with agreed := true }).modLink .b fun e => { e with agreed := true } else d

def execSplitAck (s : State) : Host.Outcome State Fault Refusal := runOn s Device.splitAckArrives

/-- POWER_BIN reaches a half: in SPLIT it is the other half's bin for the next boundary (R199, R369). -/
def Device.powerBinArrives (d : Device) (h : Half) (bin : Nat) : Device :=
  let d := d.bellFrame h
  if d.apart ∧ (d.linkEnd h).bell then d.modGov h fun g => { g with otherBin := some (bin % 2 ^ 32) } else d

def execPowerBin (h : Half) (bin : Nat) (s : State) : Host.Outcome State Fault Refusal :=
  runOn s fun d => d.powerBinArrives h bin

/-- An NVM frame reaches a half: a piece of a STORE that runs over the bell line (R318). Its payload has 1 to 255 bytes. -/
def Device.nvmFrameArrives (d : Device) (h : Half) (payload : List Byte) : Device :=
  let d := d.bellFrame h
  if d.storeOverBell ∧ d.bellUp ∧ 1 ≤ payload.length ∧ payload.length ≤ 255 then
    d.modBell fun b => { b with storeData := true }
  else d

def execNvmFrame (h : Half) (payload : List Byte) (s : State) : Host.Outcome State Fault Refusal :=
  runOn s fun d => d.nvmFrameArrives h payload

/-- RETRAIN reaches a half whose far end has begun to train: it trains too, where its PD7 is ON (R372). -/
def Device.retrainArrives (d : Device) (h : Half) : Device :=
  let d := d.bellFrame h
  if d.link.bell.retrain ≠ some h.other then d
  else
    let d := d.modBell fun b => { b with retrain := none }
    if d.isOn (linkPart h) then d.startTraining h else d

def execRetrainFrame (h : Half) (_payload : Byte) (s : State) : Host.Outcome State Fault Refusal :=
  runOn s fun d => d.retrainArrives h

/-- A Deputy has received no valid frame for 5 ms, to which time passes: the line is silent, and a half in SPLIT stands alone
(R366, R371; DESIGN CHOICE, LOG 2). -/
def Device.bellFalls (d : Device) (h : Half) : Device :=
  if !(d.linkEnd h).bell ∨ d.pins.porstLow then d
  else
    let d := d.advanceTo h ((d.linkEnd h).lastFrame + BitVec.ofNat 64 (5 * ms))
    let d := d.modLink h fun e =>
      { e with bell := false, frames := 0, agreed := false, mode := if e.mode = .split then .autonomous else e.mode }
    (d.perr .a (lnkP h) 8).report h { unitReport 0x6A 0x74 (lnkP h) 0x40 with access := 5 }

def execBellSilent (h : Half) (s : State) : Host.Outcome State Fault Refusal := runOn s fun d => d.bellFalls h

/-! ## Retraining (R372, R373) -/

/-- Work that forbids a retrain: a spanning lode LOADING or PLACING, or a request that crosses the halves. -/
def Device.spanningWork (d : Device) : Bool :=
  d.usedSlots.any (fun l =>
    let x := d.lode l
    x.spans && (x.st == .loading || x.st == .placing))
  || d.service.requests.any fun r => d.crossesLink r.queue r.lode

/-- A retrain request on a half: refused with its reason, or begun. -/
def Device.askRetrain (d : Device) (h : Half) : Device :=
  if (d.linkEnd h).mode = .joined then d
  else if d.spanningWork then d.modLink h fun e => { e with result := 2#8 }
  else if !d.isOn (linkPart h) then d.modLink h fun e => { e with result := 3#8 }
  else (d.modLink h fun e => { e with asked := true }).beginRetrain h

/-- A write of LINKCMD that passed the gate (R28, R372). -/
def Device.linkCommand (d : Device) (m : Master) (v : W32) : Bool × Device :=
  if !cpOk v then (false, d.accessError m devP 0x80 16 0x05 true)
  else if low16 v ≠ 1 then (false, d.classErr m devP 0)
  else
    let d := d.each (d.copies (homeOf m) devP) fun d h => d.setReg h devP 0x80 v
    (true, d.askRetrain (homeOf m))

def execRetrainRequest (m : Master) (v : W32) (s : State) : Host.Outcome State Fault Refusal :=
  runOn s fun d => d.guarded m devP 0x80 v fun d => d.linkCommand m v

/-- Offsets at which a copy of a global page holds a word that differs from reset. -/
def Device.pageOffsets (d : Device) (p : PageId) : List Nat :=
  d.regs.filterMap fun e =>
    let off := e.1 % 2 ^ 24
    if pageBase p ≤ off ∧ off < pageBase p + 0x1000 then some (off - pageBase p) else none

/-- Copy a global page from one half to the other. -/
def Device.copyPage (d : Device) (p : PageId) (src : Half) : Device :=
  d.each (d.pageOffsets p) fun d off => d.setReg src.other p off (d.reg src p off)

/-- Reconcile every global page that advanced on a copy: from Half B's copy where it alone advanced, else from Half A's; the
number of pages on which Half B's writes were overwritten goes with it (R373). -/
def Device.reconcile (d : Device) : Nat × Device :=
  globalPages.foldl (fun (acc : Nat × Device) p =>
    let base := tget 0#32 d.link.seqBase (pageBase p)
    let a := d.reg .a p 0x24 != base
    let b := d.reg .b p 0x24 != base
    if a then (acc.1 + (if b then 1 else 0), acc.2.copyPage p .a)
    else if b then (acc.1, acc.2.copyPage p .b)
    else acc) (0, d)

/-- Training has succeeded: the ends are up, and halves that were apart join. -/
def Device.trained (d : Device) : Device :=
  if (d.linkEnd .a).st ≠ .training ∨ (d.linkEnd .b).st ≠ .training ∨ !d.isOn 6 ∨ !d.isOn 8 then d
  else
    let was := d.apart
    let up (d : Device) (h : Half) : Device := d.modLink h fun e => { e with st := .up, failedReplays := 0 }
    let d := ((up d .a).modBell fun b => { b with retrain := none })
    let d := up d .b
    if !was then d
    else
      let (n, d) := d.reconcile
      let d := d.copyMirrors.joinSlots
      let join (d : Device) (h : Half) : Device :=
        d.modLink h fun e => { e with mode := .joined, agreed := false, asked := false, result := 1#8 }
      let d := (join d .a).modBell fun b => { b with splitReq := none, splitGo := false, splitAck := false }
      let d := Device.eventFrom (join d .b) .a 0x0005 0 n 0
      { d with link := { d.link with seqBase := [] } }

def execTrainingDone (s : State) : Host.Outcome State Fault Refusal := runOn s Device.trained

/-- Training of an end has failed: a bundle needs a second spare, or 10 ms have passed. -/
def Device.trainingFails (d : Device) (h : Half) (unrepairable : Bool) : Device :=
  let e := d.linkEnd h
  if e.st ≠ .training then d
  else
    let d := if unrepairable then d else d.advanceTo h (e.trainedAt + BitVec.ofNat 64 (10 * ms))
    let d := d.modLink h fun e => { e with
      st := .failed, reason := if unrepairable then 3#8 else 4#8, result := if unrepairable then 4#8 else 5#8, asked := false }
    let d := (d.modBell fun b => { b with retrain := none }).perr .a (lnkP h) 4
    let d := d.report h (linkReport h 0x72)
    if e.mode = .joined then d.enterSplit h (if unrepairable then 3 else 4) .failed else d

end Sys2Proof.Machine
end

