-- ==== Sys2Proof/Machine/Views.lean ====
section
/-! DEFINITION. What the read-only registers show of the units' state (R23, R37, R54, R86, R128-R130, R156, R178, R202, R203,
R233-R236, R270, R310, R311, R320, R337, R338, R361, R362, R379). A register with a stored word shows that word. -/

namespace Sys2Proof.Machine

/-- A number as the low n bits of a field, clamped to the range of an unsigned field. -/
def clampU (n : Nat) (i : Int) : Nat := (clampInt 0 (2 ^ n - 1 : Nat) i).toNat

/-- A number as the low n bits of a field, clamped to the range of a signed field. -/
def clampS (n : Nat) (i : Int) : Nat := ofSigned n (clampInt (-(2 ^ (n - 1) : Nat)) (2 ^ (n - 1) - 1 : Nat) i)

/-! ## The header (R23) -/

/-- LST.MODE of a loop engine (R156). -/
def Device.lpeMode (d : Device) (n : Nat) : Nat :=
  let c := d.engineCfg n
  if !d.clusterActive n then 3 else if c.manual then 2 else if c.fp then 1 else 0

def QState.code : QState → Nat
  | .disabled => 0 | .active => 1 | .held => 2 | .resetting => 3

/-- PSTAT.CLASSSTAT, as bits of the whole word. -/
def Device.classStat (d : Device) (p : PageId) : Nat :=
  match p.1 with
  | .clu => (d.cluster p.2).activeCells.length * 2 ^ 16 + (d.available p.2).length * 2 ^ 24
  | .lpe => d.lpeMode p.2 * 2 ^ 16
  | .que => (d.queue p.2).st.code * 2 ^ 16
  | .twi => if p.2 = 0 ∧ d.twi.ctxs.any (·.2.stretch.isSome) then 2 * 2 ^ 16 else 0
  | _ => 0

/-- The slot a page's claim shows (PTXN). -/
def Device.pageTxn (d : Device) (h : Half) (p : PageId) : Nat :=
  match d.claimedBy h p with
  | none => 0
  | some k => 8 + k % 5

/-- PID: class, half (0xFF for a global page), instance. -/
def pidWord (p : PageId) : W32 :=
  w32 (p.1.code * 2 ^ 24 + (if p.1.isGlobal then 0xFF else (pageHalf p.1 p.2).idx) * 2 ^ 16 + p.2)

def Device.pstat (d : Device) (h : Half) (p : PageId) : W32 :=
  let err := d.reg h p 0x14 &&& ~~~d.reg h p 0x18
  w32 (d.classStat p + flag (d.pageLocked h p) 6 + flag (d.claimedBy h p).isSome 5 + flag (err != 0#32) 4
    + d.pageState h p)

def Device.headerView (d : Device) (h : Half) (p : PageId) (off : Nat) : W32 :=
  match off with
  | 0x00 => pidWord p
  | 0x04 => 0x100#32
  | 0x08 => pcap p
  | 0x0C => d.pstat h p
  | 0x20 => w32 (d.pageTxn h p)
  | _ => d.reg h p off

/-! ## Global pages -/

def Phase.code : Phase → Nat
  | .idle => 0 | .open => 1 | .committing | .checked | .gone => 2 | .done => 3 | .aborted => 4

/-- The slot n of the copy of a half (R37, R41; DEDUCED, LOG 13). -/
def Device.slotOn (d : Device) (h : Half) (n : Nat) : TxnSlot := d.slotAt (if d.apart && h == .b then n + 5 else n)

def Device.txnView (d : Device) (h : Half) (off : Nat) : W32 :=
  let t := d.slotOn h ((off - 0x40) / 0x20)
  match (off - 0x40) % 0x20 with
  | 0x00 => 0#32
  | 0x04 => w32 (t.tag.toNat * 2 ^ 16 + t.reason.toNat * 2 ^ 8 + t.phase.code)
  | 0x08 => w32 t.staged.length
  | 0x10 => t.ctime.setWidth 32
  | 0x14 => (t.ctime >>> 32).setWidth 32
  | 0x18 => t.fail
  | _ => d.reg h txnP off

def StoreState.code : StoreState → Nat
  | .idle => 0 | .waiting => 1 | .writing => 2 | .verifying => 3 | .committing => 4

/-- The sequence in force on a half; 0 while defaults are. -/
def Device.seqInForce (d : Device) (h : Half) : W32 :=
  match tget none d.nvm.inForce h.idx with
  | none => 0#32
  | some b => (d.bank h b).seq

def Device.nvmView (d : Device) (h : Half) (off : Nat) : W32 :=
  let win := d.reg h nvmP 0x5C
  let b := tget none d.nvm.inForce h.idx
  match off with
  | 0x40 | 0x58 => 0#32
  | 0x44 => w32 (d.nvm.st.code + d.nvm.result.toNat * 16 + flag d.nvm.divergent 8
      + flag (b.any fun k => (d.bank h k).forceLocal) 9 + flag b.isNone 10 + flag d.nvm.next.isSome 11)
  | 0x48 => d.seqInForce .a
  | 0x4C => d.seqInForce .b
  | 0x50 => tget 0#32 d.nvm.count 0
  | 0x54 => tget 0#32 d.nvm.count 1
  | 0x5C => win
  | _ =>
    let src : Half := if bit win 8 then .b else .a
    if d.apart && src != h then 0xFFFFFFFF#32 else d.storeWord src (fld win 6 0 * 2048 + (off - 0x800))

def Device.depView (d : Device) (h : Half) (off : Nat) : W32 :=
  let e := d.linkEnd h
  match off with
  | 0x40 => w32 (flag (tget false d.deputy.running 0) 0 + flag (tget false d.deputy.running 1) 1 + flag e.bell 2
      + flag e.agreed 3 + flag (e.mode == .autonomous) 4 + (Config.bootStage d.power.stage).toNat * 256)
  | 0x44 => w32 (d.effectiveFuse % 128 + flag (Config.keyProgrammed h.idx) 8)
  | 0x48 => Config.romVersion.setWidth 32
  | _ => d.reg h depP off

def OvmState.code : OvmState → Nat
  | .absent => 0 | .loading => 1 | .verifying => 2 | .starting => 3 | .serving => 4 | .lost => 5 | .restarting => 6

def Device.ovmView (d : Device) (h : Half) (off : Nat) : W32 :=
  let o := d.ovman h
  if off = 0x40 then w32 (o.st.code + flag o.restartUsed 8 + o.version % 128 * 2 ^ 16)
  else if off = 0x44 then w32 (flag (d.serving h) 0)
  else if off = 0x48 then 0#32
  else if off = 0x58 then w32 o.size
  else if 0x60 ≤ off ∧ off < 0x90 then
    -- Deputy records the digest on success (R308)
    if o.st = .starting then 0#32 else w32 (fieldAt o.digest (off - 0x60) 4)
  else d.reg h ovmP off

def Device.pdmView (d : Device) (h : Half) (off : Nat) : W32 :=
  if 0x60 ≤ off ∧ off < 0x80 then d.dstat ((off - 0x60) / 4)
  else if off = 0x80 then d.reg h pdmP 0x80 ||| 0x8C#32
  else if off = 0x88 then d.reg h pdmP 0x88 ||| w32 (flag (d.warming .a || d.warming .b) 1)
  else if off = 0x90 then d.reg h pdmP 0x90 ||| w32 (flag d.pins.tripLatch 8)
  else d.reg h pdmP off

def SyncState.code : SyncState → Nat
  | .free => 0 | .acquiring => 1 | .locked => 2 | .gliding => 3

def Device.clkView (d : Device) (h : Half) (off : Nat) : W32 :=
  if off = 0x70 then w32 (((List.range 4).map fun g => (d.sync g).st.code * 4 ^ g).sum) else d.reg h clkP off

/-! ## Regulation -/

/-- SLST and RSLST (R129). -/
def Slew.word (s : Slew) : W32 :=
  w32 (s.tag.toNat * 2 ^ 16 + s.supCount.toNat * 2 ^ 8 + flag s.late 3 + flag s.superseded 2 + flag s.done 1 + flag s.busy 0)

/-- A set of cells as a mask. -/
def maskOf (xs : List Nat) : Nat := (xs.map (2 ^ ·)).sum

def CellState.code : CellState → Nat
  | .idle => 0 | .active => 1 | .disabled => 2 | .latched => 3 | .stopped => 4

/-- STAT of a cluster (R129): its reset value until the cluster is live (DESIGN CHOICE, LOG 65). -/
def Device.cluStat (d : Device) (n : Nat) : W32 :=
  let x := d.cluster n
  let on := x.st == .active
  if !x.live then 0#32
  else w32 (x.activeCells.length + (d.available n).length * 2 ^ 8 + x.anchor.getD 0 * 2 ^ 16 + x.slot0 * 2 ^ 19
    + x.source.toNat * 2 ^ 22 + flag x.prot.fallback 24 + flag (on && x.foldback) 25
    + flag ((List.range 8).any fun c => (x.cell c).inLimit) 26)

/-- FSTAT (R178). -/
def Protect.word (p : Protect) : W32 :=
  w32 (p.brakeCount.toNat * 2 ^ 16 + p.ovCount.toNat * 2 ^ 8 + flag p.fallback 4 + flag p.railShort 3 + flag p.brake 2
    + flag p.uv 1 + flag p.crowbar 0)

/-- The block of a cell (R129); CST reads its reset value until the cluster is live (DESIGN CHOICE, LOG 65). -/
def Cluster.cellView (x : Cluster) (c reg : Nat) : W32 :=
  let y := x.cell c
  match reg with
  | 0x0 => if !x.live then 0#32 else w32 (y.st.code + x.slotOf c * 2 ^ 4 + flag y.inLimit 8 + y.reason.toNat * 2 ^ 12)
  | 0x4 => w32 (clampS 16 y.current)
  | 0x8 => w32 (clampS 8 y.trimSteps)
  | _ => w32 (y.limits.toNat + y.hards.toNat * 2 ^ 16)

def Device.cluView (d : Device) (n off : Nat) : W32 :=
  let x := d.cluster n
  match off with
  | 0x68 => x.prot.word
  | 0x80 => d.cluStat n
  | 0x84 => w32 (clampU 17 (roundDiv (x.vref - 400 * mV) 625))
  | 0x88 => w32 (clampU 16 (roundDiv x.remote 32000) + clampU 16 (roundDiv x.loc 32000) * 2 ^ 16)
  | 0x8C => w32 (clampS 16 x.current)
  | 0x90 => w32 (d.rating n)
  | 0x94 => x.slew.word
  | 0x98 => w32 (clampU 16 (roundDiv x.vin 128000))
  | 0x9C => w32 (x.duty % 2048)
  | _ => if 0x200 ≤ off then x.cellView ((off - 0x200) / 0x20) ((off - 0x200) % 0x20) else d.reg .a (cluP n) off

def CapState.code : CapState → Nat
  | .idle => 0 | .armed => 1 | .running => 2 | .full => 3

def Device.lpeView (d : Device) (n off : Nat) : W32 :=
  let e := d.engine n
  let c := d.capture (cluHalf n)
  let own := c.owner == some n
  match off with
  | 0x100 => w32 (d.lpeMode n + flag e.windup 2 + (d.cluster n).plaus % 64 * 2 ^ 4)
  | 0x104 => w32 (e.saturated.toNat + e.windups.toNat * 2 ^ 16)
  | 0x108 => w32 (clampS 16 (roundDiv e.residual 32000))
  | 0x10C => w32 (ofSigned 18 (errCounts e.err))
  | 0x110 => e.s0
  | 0x114 => e.s1
  | 0x118 => e.s2
  | 0x144 => w32 ((if own then c.samples.length + c.st.code * 2 ^ 16 else 0) + flag e.capDenied 18 + flag e.capMode 19)
  | 0x14C => (d.capSample n).c0
  | 0x150 => (d.capSample n).c1
  | 0x154 => (d.capSample n).c2
  | 0x158 => (d.capSample n).c3
  | 0x15C => if own then c.t0.setWidth 32 else 0#32
  | 0x160 => if own then (c.t0 >>> 32).setWidth 32 else 0#32
  | _ => d.reg .a (lpeP n) off

/-- RSTAT and RIMEAS read their reset values until the rail is live (DESIGN CHOICE, LOG 65). -/
def Device.ralView (d : Device) (r off : Nat) : W32 :=
  let x := d.rail r
  if off = 0xC0 then
    if !x.live then 0#32 else w32 (d.railRef r % 512 + maskOf (d.senseValid r) * 2 ^ 9 + flag x.follow.holding 16 + flag x.slew.busy 17)
  else if off = 0xC4 then x.slew.word
  else if off = 0xC8 then
    if !x.live then 0#32 else w32 (clampU 16 (roundDiv x.current 10) + ((railClusters r).map d.rating).sum / 100 * 2 ^ 16)
  else if 0xD0 ≤ off ∧ off < 0xE0 then w32 (clampU 16 (roundDiv (tget 0 x.sense ((off - 0xD0) / 4)) 32000))
  else if 0x100 ≤ off then w32 (clampS 16 (tget 0 x.offs ((off - 0x100) / 4)))
  else d.reg .a (ralP r) off

/-! ## Heat and power -/

def Device.thmView (d : Device) (h : Half) (off : Nat) : W32 :=
  let t := d.therm h
  let valid (lo n : Nat) : Nat := maskOf ((List.range n).filter fun i => !(d.sensor h (lo + i)).invalid)
  if off = 0x94 then t.scans
  else if off = 0xA0 then
    w32 (flag (t.warn != 0#3) 0 + flag (t.throttle != 0#3) 1 + flag d.pins.tripLatch 2 + flag (t.coldWarn != 0#3) 3
      + flag t.inhibit 4 + t.hottest % 256 * 2 ^ 8 + clampS 16 (d.sensor h t.hottest).reading * 2 ^ 16)
  else if off = 0xA8 then w32 (valid 0 32)
  else if off = 0xAC then w32 (valid 32 28)
  else if 0x100 ≤ off then
    let s := d.sensor h ((off - 0x100) / 4)
    w32 (clampS 16 s.reading + s.scan.toNat * 2 ^ 24)
  else d.reg .a (thmP h) off

def Device.govView (d : Device) (h : Half) (off : Nat) : W32 :=
  let g := d.gov h
  if off = 0x80 then w32 (g.bfrac % 512 + flag g.minimum 9 + flag g.safe 10)
  else if off = 0x84 then
    w32 (g.active % 32 + g.locking.getD 0 % 32 * 2 ^ 5 + g.waiting.getD 0 % 32 * 2 ^ 10 + flag g.locking.isSome 15
      + flag g.waiting.isSome 16 + flag g.pong 17 + flag g.waitSlew.isSome 18 + g.supCount.toNat * 2 ^ 24)
  else if off = 0x88 then
    w32 (g.powerCap % 32 + g.thermCap % 32 * 2 ^ 8 + g.senseCap % 32 * 2 ^ 16 + g.fT % 32 * 2 ^ 24)
  else if off = 0x8C then w32 (satNat 65535 (g.fast / 250))
  else if off = 0x90 then w32 (satNat 65535 (g.slow / 250))
  else if off = 0x94 then w32 (satNat 65535 (g.bin / 250))
  else if 0xA0 ≤ off ∧ off < 0x130 then
    let k := (off - 0xA0) / 4
    if k < 32 then w32 (satNat 65535 ((g.spender k).pool / 2) + satNat 65535 ((g.spender k).level / 2) * 2 ^ 16) else 0#32
  else if 0x140 ≤ off ∧ off < 0x1B0 then w32 ((g.spender ((off - 0x140) / 4)).kcor % 256)
  else d.reg .a (govP h) off

/-! ## Canary -/

/-- CAP of a held capture (R337). -/
def CaptureRec.capWord (r : CaptureRec) : W32 :=
  w32 (satNat 65535 r.merge + 2 ^ 20 + flag r.second 21 + r.reacted.toNat * 2 ^ 22 + r.classes.toNat * 2 ^ 24)

/-- A capture register of a half: zeros while none is held. -/
def Canary.capView (c : Canary) (off : Nat) : W32 :=
  match c.held with
  | none => 0#32
  | some r => match off with
    | 0x40 => r.capWord
    | 0x44 => w32 (r.source.toNat + r.kind.toNat * 2 ^ 16 + r.cls.toNat * 2 ^ 24)
    | 0x48 => w32 (msgAddr r.word0)
    | 0x4C => w32 (r.hi.toNat + flag r.hiValid 16 + 2 ^ 17)
    | 0x50 => w32 (r.word0.toNat % 2 ^ 14 + r.master.toNat * 2 ^ 16 + r.access.toNat * 2 ^ 24)
    | 0x54 => r.time.setWidth 32
    | _ => (r.time >>> 32).setWidth 32

def Device.canView (d : Device) (h : Half) (off : Nat) : W32 :=
  let c := d.canary h
  if 0x40 ≤ off ∧ off < 0x5C then c.capView off
  else if off = 0x5C then
    (match c.other with
    | none => 0#32
    | some n => w32 (n.source.toNat + n.kind.toNat * 2 ^ 16 + n.cls.toNat * 2 ^ 24))
  else if off = 0x68 then w32 (c.logHead % 32 + satNat 65535 c.logSeq * 2 ^ 16)
  else if off = 0x70 then 0#32
  else if 0x200 ≤ off ∧ off < 0x400 then (tget 0#16 c.counts ((off - 0x200) / 4)).setWidth 32
  else if 0x400 ≤ off then (c.logAt ((off - 0x400) / 0x20)).word ((off - 0x400) % 0x20 / 4)
  else d.reg .a (canP h) off

def Device.canjView (d : Device) (h : Half) (off : Nat) : W32 :=
  let c := d.canary h
  if off = 0x48 then 0#32
  else if off = 0x4C then
    w32 (c.injLeft % 256 + flag c.armed 8 + flag c.injDone 9 + flag c.refused 10 + flag c.cancelled 11
      + c.requester.toNat * 2 ^ 16)
  else d.reg .a (canjP h) off

/-! ## Ports, link, bays, memory, queues -/

def Device.twiView (d : Device) (k off : Nat) : W32 :=
  let w := d.twi
  if k = 0 then
    if 0x60 ≤ off ∧ off < 0x70 then
      let c : TwiCtx := tget {} w.ctxs ((off - 0x60) / 4)
      w32 (c.pointer.toNat + c.status.toNat * 2 ^ 24)
    else if off = 0x70 then w32 (w.pecErrs.toNat + w.stretchErrs.toNat * 2 ^ 8 + w.timeouts.toNat * 2 ^ 16)
    else d.reg .a (twiP 0) off
  else if 0x44 ≤ off ∧ off < 0x54 then 0#32
  else if off = 0x54 then w.rspd.headD 0#32
  else if off = 0x58 then w.rspo.headD 0#32
  else if off = 0x5C then
    w32 ((if w.stuck then 3 else 0) + w.depq.length % 16 * 2 ^ 4 + w.ovmq.length % 16 * 2 ^ 8
      + w.lossCount.toNat * 2 ^ 16 + w.cml.toNat * 2 ^ 24)
  else if 0x60 ≤ off then
    let i := (off - 0x60) / 4
    let c := d.conv i
    w32 ((d.convAddress i).toNat + flag c.polled 15 + c.status.toNat * 2 ^ 16)
  else d.reg .a (twiP 1) off

def LinkState.code : LinkState → Nat
  | .off => 0 | .training => 1 | .up => 2 | .failed => 3

def LinkMode.code : LinkMode → Nat
  | .joined => 0 | .split => 1 | .autonomous => 2

def Device.lnkView (d : Device) (h : Half) (off : Nat) : W32 :=
  let e := d.linkEnd h
  if off = 0x40 then
    w32 (e.st.code + e.mode.code * 2 ^ 4 + flag e.bell 7 + e.reason.toNat * 2 ^ 8 + e.result.toNat * 2 ^ 16)
  else if off = 0x44 then w32 (e.spares + (d.linkEnd h.other).spares * 2 ^ 8)
  else if off = 0x48 then e.replays
  else if off = 0x4C then e.repairs.setWidth 32
  else if off = 0x50 then e.splits.setWidth 32
  else if off = 0x58 then e.splitAt.setWidth 32
  else if off = 0x5C then (e.splitAt >>> 32).setWidth 32
  else if 0x60 ≤ off then
    let b : Bundle := tget {} e.bundles ((off - 0x60) / 4)
    w32 (b.lane.toNat + flag b.used 7 + flag b.second 8)
  else d.reg .a (lnkP h) off

def Device.bayView (d : Device) (k off : Nat) : W32 :=
  let b := d.bay k
  match off with
  | 0x44 => (match b.slot with
    | none => 0x100#32
    | some l => w32 l)
  | 0x48 => b.steps
  | 0x4C => b.ops
  | 0x50 => b.waitD
  | 0x54 => b.waitS
  | 0x58 => b.waitP
  | 0x5C => b.nulls
  | 0x60 => w32 (b.corrected.toNat + b.uncorrect.toNat * 2 ^ 16)
  | 0x6C => b.throt
  | _ => d.reg .a (bayP k) off

/-- State code of a seam layer, and of a DRAM stack (R234, R235). -/
def seamCode : DState → Nat
  | .on => 2
  | .retain => 1
  | _ => 0

/-- Streams assigned to a tile mover: those that begin or end at its half's movers, or cross to them, and that the plan gives it (R212,
R236). -/
def Device.moverStreams (d : Device) (m : Nat) : Nat :=
  let h := moverHalf m
  let mine (s : Stream) : Bool := (endType s.producer == 1 && endOn s.producer == h)
    || ((endType s.consumer == 1 || s.relays) && endOn s.consumer == h)
  (d.usedSlots.map fun l => ((d.lode l).streams.filter fun e => mine e.2 && d.serves m l e.1).length).sum

/-- What each of four equal parts of a memory has free, of a total: part n of those that are left takes what the rest cannot hold, and
of the remainder a free share (R234, R235; DESIGN CHOICE, LOG 9). -/
def freeShare (k cap : Nat) : Nat → Nat → Nat → Nat
  | 0, _, total => min cap total
  | left + 1, n, total =>
    let lo := total - (left + 1) * cap
    let v := lo + Config.layerFree k (left + 1) total % (min cap total - lo + 1)
    if n = 0 then v else freeShare k cap left (n - 1) (total - v)

def Device.memView (d : Device) (k off : Nat) : W32 :=
  let h := pageHalf .mem k
  let c := d.mem k
  if k < 2 then
    let st := (d.part (seamPart h)).st
    let free := if st = .on ∨ st = .retain then d.emptySeam h / 256 else 0
    if off < 0x50 then w32 (seamCode st + freeShare k 1984 3 ((off - 0x40) / 4) free * 2 ^ 16)
    else match off with
      | 0x50 => w32 free
      | 0x54 => c.ce
      | 0x58 => c.ue
      | _ => d.reg .a (memP k) off
  else if k < 10 then
    let p := d.part (memPart h)
    match off with
    | 0x40 =>
      let st := if c.failed then 3 else if p.st = .on then 2 else if p.st = .up ∧ p.step = 7 then 1 else 0
      w32 (st + fld (Config.freeWord d.time.freeCount) 7 0 * 2 ^ 8)
    | 0x44 => w32 (freeShare (2 + h.idx) 24576 3 ((k - 2) % 4) (d.freeDram h / 2 ^ 20))
    | 0x48 => c.ce
    | 0x4C => c.ue
    | 0x50 => c.repairs.setWidth 32
    | _ => d.reg .a (memP k) off
  else if off < 0x60 then
    let m := (k - 10) * 8 + (off - 0x40) / 4
    let x := d.mover m
    w32 ((if x.isolated then 2 else if x.moving.isSome then 1 else 0) + satNat 65535 (d.moverStreams m) * 2 ^ 16)
  else if off < 0x80 then (d.mover ((k - 10) * 8 + (off - 0x60) / 4)).tiles
  else d.reg .a (memP k) off

def Device.queView (d : Device) (q off : Nat) : W32 :=
  let x := d.queue q
  match off with
  | 0x50 | 0x64 => 0#32
  | 0x54 => x.rheadV
  | 0x68 => w32 (x.st.code + flag x.discard 2 + flag x.saturated 3 + flag (d.serverOf q == .deputy) 4
      + flag (!x.out.isEmpty) 5)
  | 0x6C => d.pktLimit q
  | 0x70 => d.byteLimit q
  | 0x74 => x.accSeq
  | 0x78 => x.rtail
  | 0x7C => x.drops
  | _ => d.reg .a (queP q) off

/-! ## The word a register shows -/

/-- The word a register of a page shows to a master, from the copy of half h where the page is global. -/
def Device.view (d : Device) (m : Master) (h : Half) (p : PageId) (off : Nat) : W32 :=
  if off < 0x40 then d.headerView h p off
  else match p.1 with
    | .dev => d.reg h p off
    | .tmb =>
      if off = 0x40 then (d.tb h).setWidth 32
      else if off = 0x44 then tget 0#32 d.time.snapshot (masterIdx m) else d.reg h p off
    | .txn => d.txnView h off
    | .nvm => d.nvmView h off
    | .dep => d.depView h off
    | .ovm => d.ovmView h off
    | .pdm => d.pdmView h off
    | .clk => d.clkView h off
    | .clu => d.cluView p.2 off
    | .lpe => d.lpeView p.2 off
    | .ral => d.ralView p.2 off
    | .thm => d.thmView (pageHalf p.1 p.2) off
    | .gov => d.govView (pageHalf p.1 p.2) off
    | .can => d.canView (pageHalf p.1 p.2) off
    | .canj => d.canjView (pageHalf p.1 p.2) off
    | .twi => d.twiView p.2 off
    | .lnk => d.lnkView (pageHalf p.1 p.2) off
    | .bay => d.bayView p.2 off
    | .mem => d.memView p.2 off
    | .que => d.queView p.2 off

end Sys2Proof.Machine
end

