-- ==== Sys2Proof/Machine/TxnFam.lean ====
section
/-! DEFINITION. Transactions: staging, the checks of the check boundary, and what becomes live at the application boundary
(R31, R34, R37-R44, R110-R118, R126, R138, R139, R141, R147-R154, R191, R202, R300, R301, R313, R330, R332, R337). -/

namespace Sys2Proof.Machine

/-! ## Pages of a transaction -/

/-- Copies of a page that a slot has claimed. -/
def TxnSlot.copies (t : TxnSlot) (p : PageId) : List Half :=
  if p.1.isGlobal then [Half.a, .b].filter fun h => t.claims.any fun c => c.1 == pageKey h p else [pageHalf p.1 p.2]

/-- The page and page offset of a staged entry. -/
def stagedAt (off : Nat) : PageId × Nat := ((pageAt off).getD devP, off % 0x1000)

/-- Staged offsets of a slot. -/
def TxnSlot.offsets (t : TxnSlot) : List Nat := t.staged.map (·.1)

/-- The staged words over the live ones, on the copies of some halves. -/
def Device.overlay (d : Device) (t : TxnSlot) (hs : List Half) : Device :=
  d.each t.staged fun d (off, v) =>
    let (p, o) := stagedAt off
    d.each ((t.copies p).filter hs.contains) fun d h => d.setReg h p o v

/-- A transaction report (unit 0x06E). -/
def txnReport (m : Nat) (kind off : Nat) : Report := { unit := 0x6E, kind, addr := off, master := m, access := 1 }

/-- Master codes of a slot's reports (R325): the shared slots name core 0. -/
def slotMaster (k : Nat) : Nat :=
  match k % 5 with
  | 0 => 1 | 1 => 2 | 2 => 8 | 3 => 3 | _ => 4

/-- A slot ends ABORTED with a report. -/
def Device.failSlot (d : Device) (k : Nat) (reason : BitVec 4) (kind fail : Nat) : Device :=
  let t := d.slotAt k
  let d := (d.setSlot k { t with fail := w32 fail }).endSlot k .aborted reason
  d.report t.home (txnReport (slotMaster k) kind fail)

/-! ## Staging (R31, R38, R39) -/

/-- Another slot holds a page copy. -/
def Device.heldByOther (d : Device) (k : Nat) (hs : List Half) (p : PageId) : Bool :=
  hs.any fun h => (d.claimedBy h p).any (· != k)

/-- A slot claims a page's copies and records their PSEQ. -/
def Device.claim (d : Device) (hs : List Half) (p : PageId) (t : TxnSlot) : TxnSlot :=
  { t with claims := hs.foldl (fun (c : Tab W32) h =>
      if c.any (·.1 == pageKey h p) then c else
        c.takeWhile (fun e => decide (e.1 < pageKey h p)) ++ [(pageKey h p, d.reg h p 0x24)]
          ++ c.dropWhile (fun e => decide (e.1 < pageKey h p))) t.claims }

/-- Put a word among the staged ones, replacing an earlier one of the same register. -/
def stagePut (off : Nat) (v : W32) : Tab W32 → Tab W32
  | [] => [(off, v)]
  | (o, w) :: t => if off < o then (off, v) :: (o, w) :: t else if off = o then (off, v) :: t else (o, w) :: stagePut off v t

/-- The word a register keeps of a write: reserved bits read 0, and a CP register holds value and complement (R8, R31, R32). -/
def RegRow.keep (r : RegRow) (v : W32) : W32 :=
  if r.cp then cpWord (low16 (v &&& w32 r.mask)) else v &&& w32 r.mask

/-- The crosscut is down between a master's home half and a page of the other half. -/
def Device.cutOff (d : Device) (m : Master) (p : PageId) : Bool :=
  !p.1.isGlobal && pageHalf p.1 p.2 != homeOf m && !d.crosscutUp

/-- A TX write by a slot's master that has passed POWN and the complement check. -/
def Device.stage (d : Device) (m : Master) (p : PageId) (o : Nat) (r : RegRow) (v : W32) : Device :=
  let k := d.slotKey m (slotOf m)
  let t := d.slotAt k
  let off := pageBase p + o
  let hs := d.copies (homeOf m) p
  let fail (reason : BitVec 4) (kind : Nat) : Device :=
    (d.endSlot k .aborted reason).report t.home (txnReport (masterCode m) kind off)
  if t.phase ≠ .open then d.accessError m p o 18 0x07 true
  else if d.cutOff m p then fail rLink 0x0E
  else if d.heldByOther k hs p then fail rConflict 0x0B
  else if 256 ≤ t.staged.length ∧ !(t.offsets.contains off) then fail rFull 0x0A
  else d.setSlot k { d.claim hs p t with staged := stagePut off (r.keep v) t.staged }

/-! ## CTL commands (R37, R38) -/

/-- A write of CTLn that passed the gate; a command the state does not take is ignored with TXN_STATE. The limit in force is
TIMEOUTn at BEGIN: a later write of TIMEOUTn leaves the running one alone (the spec does not say; DESIGN CHOICE, LOG 60). -/
def Device.ctlCommand (d : Device) (m : Master) (v : W32) : Bool × Device :=
  let n := slotOf m
  let k := d.slotKey m n
  let t := d.slotAt k
  let h := homeOf m
  let tag : W16 := (v >>> 16).setWidth 16
  let ignored : Bool × Device := (false, d.report h (txnReport (masterCode m) 0x0A (pageBase txnP + 0x40 + 0x20 * n)))
  match fld v 1 0 with
  | 0 => (true, d)
  | 1 =>
    if t.busy then ignored
    else
      let limit := low16 (d.reg h txnP (0x4C + 0x20 * n)) * 10000
      (true, d.setSlot k { phase := .open, tag, home := h, opened := d.tb h, limit, ctime := t.ctime })
  | 2 =>
    if t.phase = .open ∧ t.tag = tag then (true, d.setSlot k { t with phase := .committing, accepted := d.tb h }) else ignored
  | _ => if t.phase = .open ∧ t.tag = tag then (true, d.endSlot k .aborted rAbort) else ignored

/-- The word of a CTLn command. -/
def ctlWord (tag : W16) (cmd : Nat) : W32 := w32 (tag.toNat * 2 ^ 16 + cmd)

/-- A command of a master for a slot. -/
def Device.ctl (d : Device) (m : Master) (slot : Nat) (tag : W16) (cmd : Nat) : Device :=
  let v := ctlWord tag cmd
  d.guarded m txnP (0x40 + 0x20 * slot) v fun d => d.ctlCommand m v

def execTxnBegin (m : Master) (slot : Fin 5) (tag : W16) (s : State) : Host.Outcome State Fault Refusal :=
  runOn s fun d => d.ctl m slot tag 1
def execTxnCommit (m : Master) (slot : Fin 5) (tag : W16) (s : State) : Host.Outcome State Fault Refusal :=
  runOn s fun d => d.ctl m slot tag 2
def execTxnAbort (m : Master) (slot : Fin 5) (tag : W16) (s : State) : Host.Outcome State Fault Refusal :=
  runOn s fun d => d.ctl m slot tag 3

/-- No COMMIT within TIMEOUTn. -/
def Device.txnTimeout (d : Device) (k : Nat) : Device :=
  let t := d.slotAt k
  if t.phase ≠ .open then d
  else
    let d := d.advanceTo t.home (t.opened + BitVec.ofNat 64 t.limit)
    (d.endSlot k .aborted rTimeout).report t.home
      (txnReport (slotMaster k) 0x0F (pageBase txnP + 0x40 + 0x20 * (k % 5)))

def execTxnTimeout (slot : Fin 10) (s : State) : Host.Outcome State Fault Refusal := runOn s fun d => d.txnTimeout slot

/-! ## Envelopes (R110, R301): each test reads the overlaid state and names one register -/

/-- A VCODE lies in the permitted range and in its rail's envelope. -/
def Device.vcodeOk (d : Device) (r c : Nat) : Bool :=
  let h := ralHalf r
  decide (120 ≤ c ∧ c ≤ 480 ∧ d.cp h depP (0x80 + 4 * r) % 512 ≤ c ∧ c ≤ d.cp h depP (0xC0 + 4 * r) % 512)

/-- ILIM's code and the rail's current envelope. -/
def Device.ilimOk (d : Device) (n : Nat) : Bool :=
  let c := d.clu n 0x48 % 64
  let r := railOf n
  decide (c ≤ 32 ∧ (3000 + 125 * c) * 4 * (railClusters r).length ≤ 200 * (d.cp (ralHalf r) depP (0x100 + 4 * r) % 8192))

/-- A mask that leaves an available cell, or a domain that is not ON. -/
def Device.cellOffOk (d : Device) (n : Nat) : Bool :=
  !(d.part (railPart (railOf n))).st == .on || !(d.available n).isEmpty

def Device.cluOk (d : Device) (n o : Nat) : Bool :=
  let v := d.clu n o
  match o with
  | 0x40 => d.vcodeOk (railOf n) (v % 512)
  | 0x48 => d.ilimOk n
  | 0x4C => decide (v / 256 < v % 256)
  | 0x50 => decide (1 ≤ v % 16 ∧ v % 16 ≤ 8)
  | 0x58 => decide (v % 8 ≤ 6 ∧ 8 ≤ v / 8 % 32)
  | 0x5C => decide (v % 4 ≠ 3)
  | 0x60 => d.cellOffOk n
  | 0x64 => decide (8 ≤ v % 64 ∧ 4 ≤ v / 256 % 64)
  | _ => true

/-- DFSW is the sync group's FSW (R138). -/
def Device.dfswOk (d : Device) (n : Nat) : Bool := d.lpe n 0x40 / 16 % 64 == d.fsw (syncOf n)

/-- A section of the set in use is stable (R138). -/
def sectionOk (fp : Bool) (c : Section) : Bool :=
  if fp then finite32 c.b0 && finite32 c.b1 && finite32 c.a1 && !lt32 0x3F800000#32 (c.a1 &&& 0x7FFFFFFF#32)
  else decide ((mant c.a1).natAbs ≤ 2 ^ c.exp)

def Device.sectionsOk (d : Device) (n : Nat) : Bool := (d.sections n).all (sectionOk (d.engineCfg n).fp)

/-- A MANUAL state's duty does not lead above VMAX (R150). -/
def Device.manualOk (d : Device) (n : Nat) : Bool :=
  let md := d.lpe n 0x44 % 2048
  let r := railOf n
  let x := d.cluster n
  let duty := if md = 2047 then x.dutyNext else md
  decide (md ≤ 1228 ∨ md = 2047) && (!(d.engineCfg n).manual
    || decide (x.vin * duty * (fld (d.reg .a (lpeP n) 0x48) 9 0 : Nat)
        ≤ vcode (d.cp (ralHalf r) depP (0xC0 + 4 * r) % 512) * 2097152))

/-- The test signal (R154): kinds, amplitude, the sine's frequency, and the envelope at the set-point. -/
def Device.injectOk (d : Device) (n : Nat) : Bool :=
  let w := d.reg .a (lpeP n) 0x50
  let ty := fld w 1 0
  let amp := fld w 15 8
  let hz := fld (d.reg .a (lpeP n) 0x54) 20 0
  let x := d.cluster n
  let r := railOf n
  let ref := if x.st = .active then x.vref else d.vset n
  let a : Volt := amp * 16000
  let lim (o : Nat) : Volt := vcode (d.cp (ralHalf r) depP (o + 4 * r) % 512)
  let quarter := d.fswUnits (syncOf n) * 1250000 / (if (d.engineCfg n).fp then 128 else 32)
  decide (ty ≠ 3 ∧ amp ≤ 160) && (ty == 0 || decide (1 ≤ amp))
    && (ty != 1 || decide (1000 ≤ hz ∧ hz ≤ 2000000 ∧ hz ≤ quarter))
    && (ty == 0 || bit w 2 || decide (lim 0x80 ≤ ref - a ∧ ref + a ≤ lim 0xC0))

def Device.lpeOk (d : Device) (n o : Nat) : Bool :=
  let hz := fld (d.reg .a (lpeP n) 0x54) 20 0
  if o = 0x40 then d.dfswOk n && d.sectionsOk n && d.manualOk n && d.injectOk n
  else if o = 0x44 ∨ o = 0x48 then d.manualOk n
  else if o = 0x4C then decide (1 ≤ fld (d.reg .a (lpeP n) 0x4C) 7 0)
  else if o = 0x50 then d.injectOk n
  else if o = 0x54 then decide (1000 ≤ hz ∧ hz ≤ 2000000) && d.injectOk n
  else d.sectionsOk n

/-- FVLO lies below FVHI, both in the rail's envelope; on a CORE rail the 400 MHz entry lies between them (R147, R191). -/
def Device.followOk (d : Device) (r : Nat) : Bool :=
  let lo := d.ral r 0xA4 % 512
  let hi := d.ral r 0xA8 % 512
  decide (lo < hi) && d.vcodeOk r lo && d.vcodeOk r hi && (r % 6 != 0 || d.codeFits (ralHalf r) 0)

def Device.ralOk (d : Device) (r o : Nat) : Bool :=
  let w := d.reg .a (ralP r) o
  match o with
  | 0x40 => d.vcodeOk r (fld w 8 0)
  | 0x4C => r % 6 != 0 || BitVec.ofNat 16 (fld w 6 0) == Config.rllrCal (ralHalf r).idx
  | 0x50 => decide (1 ≤ fld w 5 0 ∧ 1 ≤ fld w 15 8)
  | 0x54 => decide (fld w 3 0 ≠ 0)
  | 0xA0 => decide (fld w 2 0 ≤ 3)
  | 0xA4 | 0xA8 => d.followOk r
  | 0xAC => decide (fld w 3 0 ≤ 10)
  | _ => true

/-- A sync group's codes, its spread, and what its clusters need of FSW (R126, R128, R138, R154). -/
def Device.syncOk (d : Device) (g : Nat) : Bool :=
  let v := d.cp .a clkP (0x60 + 4 * g)
  let f := 64 + v % 64
  let ssc := v / 256 % 4
  decide (v % 64 ≤ 48 ∧ v / 64 % 4 ≤ 1 ∧ ssc ≤ 2 ∧ v / 1024 ≤ 40)
    && (ssc == 0 || decide (6400 ≤ f * (100 - 2 * ssc) ∧ f * (100 + 2 * ssc) ≤ 11200))
    && (syncClusters g).all fun n => d.dfswOk n && d.injectOk n

def Device.thmOk (d : Device) (h : Half) (o : Nat) : Bool :=
  if o = 0x90 then decide (1 ≤ fld (d.reg .a (thmP h) o) 3 0)
  else
    -- the thresholds of the group rise from TCOLD_INHIBIT to THOT_TRIP
    let t (k : Nat) : Int := toSigned 8 (d.cp .a (thmP h) (0x40 + 0x10 * k + o % 16))
    decide (t 0 < t 1 ∧ t 1 < t 2 ∧ t 2 < t 3 ∧ t 3 < t 4) && decide (t 4 ≤ toSigned 8 (d.cp h depP 0x144))

/-- A GOV page's ranges (R202); BMIN, PFAST and PSLOW are GOV[0]'s on both halves outside SPLIT. -/
def Device.govOk (d : Device) (h : Half) (o : Nat) : Bool :=
  let wide (o : Nat) : Bool := o == 0x58 || o == 0x5C || o == 0x60
  let v (o : Nat) : Nat := d.cp .a (govP (if wide o && !d.apart then .a else h)) o
  let budgets := if o = 0x58 ∧ !d.apart then [Half.a, .b] else [h]
  let x := v o
  match o with
  | 0x40 | 0x44 => decide (1 ≤ x % 64 ∧ x % 64 ≤ 32)
  | 0x48 => decide (x % 64 ≤ 32 ∧ x / 256 % 64 ≤ 32)
  | 0x4C => decide (1 ≤ x / 4 % 64 ∧ x / 4 % 64 ≤ 32 ∧ 1 ≤ x / 256 % 64 ∧ x / 256 % 64 ≤ 32)
  | 0x50 | 0x58 => decide (16 ≤ x % 512 ∧ x % 512 ≤ 256)
      && budgets.all fun h => decide (v 0x58 % 512 ≤ d.cp .a (govP h) 0x50 % 512)
  | 0x54 => decide (16 ≤ x % 512 ∧ x % 512 ≤ 256)
  | 0x5C => decide (v 0x60 % 1024 ≤ v 0x5C % 1024 ∧ v 0x5C % 1024 ≤ d.cp h depP 0x140 % 1024)
  | 0x60 => decide (v 0x60 % 1024 ≤ v 0x5C % 1024)
  | 0x64 => decide (x % 32 ≤ 24)
  | _ => true

/-- Classes of eight kinds: none below its default, and reserved kinds NOTE (R330). -/
def kclassOk (i v : Nat) : Bool :=
  (List.range 8).all fun j =>
    let c := v / 4 ^ j % 4
    let k := 8 * i + j
    if kindReserved k then c == 0 else decide (kindClass k ≤ c)

/-- HALTPOL: RETAIN for PD3 and PD4 alone, 0b11 for none (R337). -/
def haltPolOk (v : Nat) : Bool :=
  (List.range 7).all fun i =>
    let a := v / 4 ^ i % 4
    a != 3 && (a != 2 || i == 2 || i == 3)

def Device.canOk (d : Device) (h : Half) (o : Nat) : Bool :=
  let v := d.cp .a (canP h) o
  if o = 0x64 then haltPolOk v
  else if 0x80 ≤ o then kclassOk ((o - 0x80) / 4) v
  else true

/-- The envelope tests of one staged register, on the overlaid state; h is the copy of a global page. -/
def Device.envelopeOk (d : Device) (h : Half) (p : PageId) (o : Nat) : Bool :=
  let i := p.2
  match p.1 with
  | .clu => d.cluOk i o
  | .lpe => d.lpeOk i o
  | .ral => d.ralOk i o
  | .clk => d.syncOk ((o - 0x60) / 4)
  | .thm => d.thmOk (pageHalf p.1 i) o
  | .gov => d.govOk (pageHalf p.1 i) o
  | .can => d.canOk (pageHalf p.1 i) o
  | .pdm =>
    let k := (o - 0x40) / 4
    let cmd := d.cp h pdmP o % 8
    !decide (o < 0x60) || !(cmd == 2 || cmd == 3) || d.maskAllows h k
  | _ => true

/-- Pages that a slot other than Deputy's may not touch while Overman is lost or the safe state holds (R313, R332). -/
def Device.barred (d : Device) (k : Nat) (h : Half) (p : PageId) : Bool :=
  let set := match p.1 with
    | .clu | .ral | .lpe | .gov => (d.gov h).frozen || (d.canary h).safe
    | .pdm => (d.canary h).safe
    | _ => false
  k % 5 != 3 && set

/-! ## The checks (R41, R43) -/

/-- States that DOMAIN refuses: OFF, RETAIN, RESET, ISOLATED, RETIRED. -/
def badState (st : Nat) : Bool := decide (st ≤ 2) || st == 6 || st == 7

/-- A staged PDM command that acts on the far half or on both, while the halves are apart (R41). -/
def actsFar (h : Half) (o v : Nat) : Bool :=
  if o < 0x60 then
    let i := (o - 0x40) / 4
    decide (6 ≤ i) || partHalf i != h
  else if o = 0x84 then v == 1 || v == 2 || v == (if h = .a then 4 else 3)
  else false

def Device.linkFails (d : Device) (t : TxnSlot) : List Nat :=
  if t.spans && !d.crosscutUp then t.offsets
  else if !d.apart then []
  else (t.staged.filter fun (off, v) =>
    let (p, o) := stagedAt off
    p == pdmP && actsFar t.home o (low16 v)).map (·.1)

def Device.domainFails (d : Device) (t : TxnSlot) : List Nat :=
  (t.staged.filter fun (off, v) =>
    let (p, o) := stagedAt off
    ((t.copies p).any fun h => badState (d.pageState h p))
      || (p == pdmP && decide (o < 0x60) && !d.commandOk ((o - 0x40) / 4) (low16 v % 8))
      || (p == pdmP && o == 0x84 && decide (4 < low16 v))).map (·.1)

def Device.conflictFails (d : Device) (k : Nat) (t : TxnSlot) : List Nat :=
  let others := d.busySlots.any (· != k)
  (t.staged.filter fun (off, v) =>
    let (p, o) := stagedAt off
    ((t.copies p).any fun h => t.claims.any fun c => c.1 == pageKey h p && c.2 != d.reg h p 0x24)
      || (p == pdmP && o == 0x84 && low16 v == 1 && others)).map (·.1)

def Device.envelopeFails (d : Device) (k : Nat) (t : TxnSlot) : List Nat :=
  let d' := d.overlay t [.a, .b]
  t.offsets.filter fun off =>
    let (p, o) := stagedAt off
    (t.copies p).any fun h => !d'.envelopeOk h p o || d.barred k h p

/-- The first failing check, its Canary kind, and the lowest offset that fails it. -/
def Device.txnCheck (d : Device) (k : Nat) : Option (BitVec 4 × Nat × Nat) :=
  let t := d.slotAt k
  match d.linkFails t, d.domainFails t, d.conflictFails k t, d.envelopeFails k t with
  | off :: _, _, _, _ => some (rLink, 0x0E, off)
  | [], off :: _, _, _ => some (rDomain, 0x0D, off)
  | [], [], off :: _, _ => some (rConflict, 0x0B, off)
  | [], [], [], off :: _ => some (rEnvelope, 0x0C, off)
  | [], [], [], [] => none

/-! ## What becomes live (R44) -/

/-- The reference in force of a cluster as a VCODE. -/
def codeOf (v : Volt) : Nat := (roundDiv (v - 400 * mV) 160000).toNat

/-- A FOLLOW path of a rail is a set-point source (R111). -/
def Device.followUsed (d : Device) (r : Nat) : Bool :=
  d.ral r 0x44 % 2 == 1 || (railClusters r).any fun n => d.clu n 0x5C % 4 == 2

/-- A path newly selected, or whose source or range changes while it is lost, holds until 4 valid periods (R149). -/
def Device.followSelect (before d : Device) (r : Nat) (staged : List Nat) : Device :=
  let x := d.rail r
  let src := d.ral r 0xA0 % 8
  let has (o : Nat) : Bool := staged.contains (pageBase (ralP r) + o)
  let fresh := d.followUsed r && !before.followUsed r
  let changed := src != before.ral r 0xA0 % 8
  let again := x.follow.holding && (has 0xA0 || has 0xA4 || has 0xA8)
  if !fresh && !changed && !again then d
  else
    let code := if !fresh then x.follow.code
      else if d.ral r 0x44 % 2 = 1 then before.railRef r
      else (((railClusters r).find? fun n => d.clu n 0x5C % 4 == 2).map fun n => codeOf (before.vset n)).getD (before.railRef r)
    d.setRail r { x with follow := { x.follow with
      code, filter := code * 2 ^ 30, mapped := code * 2 ^ 15, valid := 0, invalid := 0, periods := []
      selecting := decide (src ≠ 2), since := d.tb (ralHalf r), holding := x.follow.holding && src != 2 } }

/-- A committed SRC takes hold: offsets start at 0 on entry to CASCADE (file 06). -/
def Device.sourceTaken (d : Device) (n : Nat) : Device :=
  let src := BitVec.ofNat 2 (d.clu n 0x5C)
  d.modCluster n fun x =>
    if x.st ≠ .active then x else { x with source := src, offset := if src = 1#2 ∧ x.source ≠ 1#2 then 0 else x.offset }

/-- Voltage commands of a rail (R114): the rail's own when RTGT or RSRC is among the changes. -/
def Device.voltageCommands (before d : Device) (tag : W16) (r : Nat) (staged : List Nat) : Device :=
  let cs := (railClusters r).filter fun n => d.vset n != before.vset n
  let whole := [0x40, 0x44].any fun o => staged.contains (pageBase (ralP r) + o)
  if !(cs.any d.clusterActive) then d
  else if whole then d.railCommand r tag (cs.map fun n => (n, d.vset n)) none
  else d.each cs fun d n => d.command n tag (d.vset n) none

/-- Changes of a loop engine's settings (R139, R150, R151, R154, R155). -/
def Device.engineTaken (before d : Device) (n : Nat) (staged : List Nat) : Device :=
  let c0 := before.engineCfg n
  let c1 := d.engineCfg n
  let duty := (d.cluster n).dutyNext
  let reset := c0.order != c1.order || c0.fp != c1.fp || c0.bank != c1.bank || before.sections n != d.sections n
  let active := d.clusterActive n
  let inject := staged.contains (pageBase (lpeP n) + 0x50)
  let cap := d.capture (cluHalf n)
  let stop := c0.fp != c1.fp && cap.owner == some n && cap.st == .running
  let d := if stop then d.setCapture (cluHalf n) { cap with st := .full } else d
  d.modEngine n fun e => { e with
    preset := if active && ((reset && !c1.manual) || (c0.manual && !c1.manual)) then some duty else e.preset
    hold := if c1.manual && !c0.manual then duty else e.hold
    capMode := e.capMode || stop
    phase := if inject then 0#32 else e.phase
    prbs := if inject then 0x7FF#11 else e.prbs
    chips := if inject then 0 else e.chips }

/-- A committed SYNCg (R125-R127). -/
def Device.syncTaken (before d : Device) (g : Nat) : Device :=
  let x := d.sync g
  let v := d.cp .a clkP (0x60 + 4 * g)
  let f := (64 + v % 64) * 1250000
  let moved := d.fsw g != before.fsw g
  let follows := v / 64 % 4 == 1
  match x.st with
  | .free =>
    let x := { x with spread := decide (v / 256 % 4 ≠ 0) }
    if moved then d.setSyncState g { x with st := .gliding } else d.setSync g x
  | .gliding => d
  | .acquiring => if follows then d else d.setSyncState g { x with st := .gliding }
  | .locked =>
    if !follows then d.setSyncState g { x with st := .gliding }
    else if 106 * f < 100 * x.freq ∨ 100 * x.freq < 94 * f then d.syncLost g
    else d

/-- What the units do with the words of a transaction that has just become live. -/
def Device.takeEffect (before d : Device) (tag : W16) (staged : List Nat) : Device :=
  let pages := (staged.map fun off => (stagedAt off).1).eraseDups
  let has (p : PageId) (o : Nat) : Bool := staged.contains (pageBase p + o)
  let clus := (pages.filter fun p => p.1 == .clu).map (·.2)
  let rails := ((clus.map railOf) ++ (pages.filter fun p => p.1 == .ral).map (·.2)).eraseDups
  let d := if !d.apart && (pages.contains (govP .a) || pages.contains (canP .a)) then d.copyMirrors else d
  let d := d.each rails fun d r => Device.followSelect before d r staged
  let d := d.each rails fun d r => Device.voltageCommands before d tag r staged
  let d := d.each (clus.filter fun n => has (cluP n) 0x5C) Device.sourceTaken
  let d := d.each (clus.filter fun n => has (cluP n) 0x60 || has (cluP n) 0x50) Device.cellsTaken
  let d := d.each (rails.filter fun r => has (ralP r) 0x54) Device.senseCheck
  let d := d.each ((pages.filter fun p => p.1 == .lpe).map (·.2)) fun d n => Device.engineTaken before d n staged
  let d := d.each ((List.range 4).filter fun g => has clkP (0x60 + 4 * g)) fun d g => Device.syncTaken before d g
  let lpes := (pages.filter fun p => p.1 == .lpe).map (·.2)
  let d := d.each (clus ++ lpes) Device.brakeEnd
  let d := d.each (bothHalves.filter fun h => has (govP h) 0x50 || has (govP h) 0x54) Device.capBfrac
  d.each (bothHalves.filter fun h => has (govP h) 0x64) Device.frequencyRequest

/-- A transaction's writes become live on some halves: words, PSEQ once per touched page, and their effects. -/
def Device.applyWrites (d : Device) (t : TxnSlot) (tag : W16) (hs : List Half) : Device :=
  let live := t.staged.filter fun e => (t.copies (stagedAt e.1).1).any hs.contains
  let d' := d.overlay t hs
  let d' := d'.each (t.claims.filter fun c => hs.contains (keyHalf c.1)) fun d c =>
    d.bumpSeq (keyHalf c.1) (keyPage c.1)
  let d' := d'.each live fun d' e =>
    let (p, o) := stagedAt e.1
    d'.each ((t.copies p).filter hs.contains) fun d' h => Device.crossed d d' (regKey h p o)
  Device.takeEffect d d' tag (live.map (·.1))

/-- Committed domain and device commands run once their slot is DONE; one whose word crossed badly is discarded (R51, R85,
R86). -/
def Device.runCommands (before d : Device) (t : TxnSlot) : Device :=
  let good (o : Nat) : Bool := (t.copies pdmP).all fun h => !before.cross.bad.contains (regKey h pdmP o)
  let word (o : Nat) : Option W32 :=
    ((t.staged.find? fun e => e.1 == pageBase pdmP + o).map (·.2)).filter fun _ => good o
  let d := d.each (List.range 8) fun d i =>
    match word (0x40 + 4 * i) with
    | some v => d.domainCommand i (low16 v % 8)
    | none => d
  match word 0x84 with
  | some v => d.deviceCommand (low16 v)
  | none => d

/-- The application boundary of a slot: DOMAIN once more, then the writes on the halves that hold GO, group after group, each
group at the boundary of its own timebase. -/
def Device.applySlot (d : Device) (k : Nat) (groups : List (List Half)) (partly : Bool) : Device :=
  let t := d.slotAt k
  match d.domainFails t with
  | off :: _ => d.failSlot k rDomain 0x0D off
  | [] =>
    let b3 := d.tb ((groups.headD []).headD .a)
    let d' := d.each groups fun d hs => (d.advanceTo (hs.headD .a) b3).applyWrites t t.tag hs
    let d' := d'.endSlot k .done (if partly then rPartial else 0#4)
    let d' := if partly then d'.report t.home (txnReport (slotMaster k) 0x10 (t.offsets.headD 0)) else d'
    Device.runCommands d d' t

/-! ## Deputy's direct writes in a HALT reaction (R34) -/

/-- A TX register that Deputy may write directly: its half's HALT reaction is in progress. -/
def Device.haltDirect (d : Device) (m : Master) (p : PageId) : Bool :=
  isDeputy m && (d.slotAt (d.slotKey m 3)).phase != .open && (d.copies (homeOf m) p).any fun h => (d.canary h).safe

/-- The write applies at the next commit-grid boundary, checked like a transaction of one write. -/
def Device.haltWrite (d : Device) (m : Master) (p : PageId) (o : Nat) (r : RegRow) (v : W32) : Device :=
  let h := homeOf m
  let d := d.advanceGrid h 128
  let hs := d.copies h p
  let t : TxnSlot := d.claim hs p { home := h, staged := [(pageBase p + o, r.keep v)] }
  if (d.envelopeFails 3 t).isEmpty then Device.runCommands d (d.applyWrites t tagHalt bothHalves) t
  else d.report h (accessReport m 0x0C (pageBase p + o) true)

end Sys2Proof.Machine
end

