-- ==== Sys2Proof/Machine/Registers.lean ====
section
/-! DEFINITION. The register fabric: one read or write of a BAR0 register by a master, unit reset, and the boundaries of a
transaction with the writes it held back (R8, R9, R22-R44, R54, R86, R129, R178, R202, R233-R236, R242, R245, R261, R270,
R300-R303, R311, R320, R337, R338, R342, R361, R362, R379). -/

namespace Sys2Proof.Machine

/-- How a direct write ends: taken and counted in PSEQ, taken and not counted (R27), or discarded. -/
inductive Taken where
  | counted | uncounted | discarded
  deriving DecidableEq, Repr

/-- How a write of a master ends on the bus: done, held behind a commit window, refused under POWN, refused otherwise. -/
inductive WriteEnd where
  | done | held | owner | refused
  deriving DecidableEq, Repr

/-! ## Unit reset (R24, R101) -/

/-- What a unit keeps of its own at a unit reset of its page; the body's words are restored before. -/
def Device.unitOwn (before d : Device) (m : Master) (p : PageId) (hs : List Half) : Device :=
  let n := p.2
  let h := pageHalf p.1 n
  match p.1 with
  | .clu =>
    ((d.modCluster n fun x => { x with
        slew := {}, prot := { x.prot with brakeCount := 0#8, ovCount := 0#8 }
        cells := tmap {} (fun _ c => { c with limits := 0#16, hards := 0#16, trim := 0 }) x.cells }).sourceTaken n).cellsTaken n
  | .lpe =>
    let d := Device.engineTaken before d n [pageBase p + 0x50]
    let d := if (d.capture h).owner = some n then d.setCapture h {} else d
    let d := d.modCluster n fun x => { x with plaus := 0 }
    d.modEngine n fun e => { preset := e.preset, hold := e.hold, base := e.base }
  | .ral => d.modRail n fun x => { x with
      s0 := 0#32, s1 := 0#32, s2 := 0#32, u := 0#32, share := [], offs := [], slew := {}, follow := {} }
  | .thm =>
    let t := d.therm h
    d.setTherm h { scans := t.scans, inhibit := t.inhibit, inhibitRun := t.inhibitRun }
  | .gov =>
    let d := if d.apart then d else d.copyMirrors
    ((d.setBfrac h 256).capBfrac h).modGov h fun g => { g with supCount := 0#8, retry := false, hotAt400 := 0, throttled := 0 }
  | .can => if d.apart then d else d.copyMirrors
  | .canj => d.modCanary h fun c => { c with
      injLeft := 0, armed := false, injDone := false, refused := false, cancelled := false, requester := 0#8 }
  | .twi =>
    if n = 0 then d.modTwi fun t => { t with ctxs := [], reply := [], pecErrs := 0#8, stretchErrs := 0#8, timeouts := 0#8 }
    else (d.pmReset).modTwi fun t => { t with lossCount := 0#8, cml := 0#8 }
  | .lnk => d.setLinkEnd h { d.linkEnd h with result := 0#8, replays := 0#32, repairs := 0#16, splits := 0#16 }
  | .bay => d.modBay n Bay.clear
  | .mem =>
    if n < 10 then d.setMem n { d.mem n with ce := 0#32, ue := 0#32 }
    else d.each ((List.range 8).map ((n - 10) * 8 + ·)) fun d k => d.setMover k { d.mover k with tiles := 0#32 }
  | .que => d.emptyQueue n
  | .txn => d.each [0, 1, 2, 3, 4] fun d k => d.setSlot (d.slotKey m k) {}
  | .nvm => d.modNvm fun x => { x with result := 0#4 }
  | .clk => d.each (if hs.contains .a then [0, 1, 2, 3] else [2, 3]) fun d g => Device.syncTaken before d g
  | _ => d

/-- A unit reset: the page body returns to its reset values, store values reloaded, on every copy the master reaches; the
header stays (R24). -/
def Device.unitBody (d : Device) (m : Master) (p : PageId) : Device :=
  let hs := d.copies (homeOf m) p
  Device.unitOwn d (d.restorePage hs p 0x40) m p hs

/-- Set or clear PCTL.RST on the copies a master reaches. -/
def Device.setRst (d : Device) (m : Master) (p : PageId) (on : Bool) : Device :=
  d.each (d.copies (homeOf m) p) fun d h => d.setReg h p 0x10 (setFld (d.reg h p 0x10) 1 1 (if on then 1 else 0))

/-- A write of PCTL that the page's owner made (R24, R108): `begins` leaves the reset it starts in progress. -/
def Device.pctlWrite (d : Device) (m : Master) (p : PageId) (v : W32) (begins : Bool) : Taken × Device :=
  let st := d.pageState (copyOf m p) p
  if p.1 = .clu ∧ st ≠ 3 ∧ st ≠ 5 then (.discarded, d.perr .a p 4)
  else if (st = 6 ∨ st = 7) ∧ !isDeputy m then (.discarded, d)
  else
    let d := d.each (d.copies (homeOf m) p) fun d h => d.setReg h p 0x10 (setFld (d.reg h p 0x10) 0 0 (fld v 0 0))
    if !bit v 1 then (.counted, d)
    else if begins then (.counted, d.setRst m p true)
    else (.counted, d.unitBody m p)

/-- A write of 1 to PCTL.RST, EN kept: the whole reset, or only its start. -/
def Device.resetStart (d : Device) (m : Master) (p : PageId) (begins : Bool) : Device :=
  let v := w32 (2 + fld (d.reg (copyOf m p) p 0x10) 0 0)
  d.guarded m p 0x10 v fun d =>
    let (t, d) := d.pctlWrite m p v begins
    (t == .counted, d)

/-- The end of a unit reset in progress. -/
def Device.resetFinish (d : Device) (m : Master) (p : PageId) : Device :=
  if bit (d.reg (copyOf m p) p 0x10) 1 then (d.unitBody m p).setRst m p false else d

/-! ## Direct registers with a rule of their own -/

/-- A stored write. -/
def Device.store (d : Device) (m : Master) (p : PageId) (o : Nat) (v : W32) : Taken × Device :=
  (.counted, d.each (d.copies (homeOf m) p) fun d h => d.setReg h p o v)

/-- A discarded write that sets CLASSERR bit 0. -/
def Device.storeErr (d : Device) (m : Master) (p : PageId) : Taken × Device := (.discarded, d.classErr m p 0)

/-- A stored write with a range: outside it the write is discarded. -/
def Device.storeIf (d : Device) (ok : Bool) (m : Master) (p : PageId) (o : Nat) (v : W32) : Taken × Device :=
  if ok then d.store m p o v else (.discarded, d)

/-- An action that says whether it accepts the write. -/
def took (r : Bool × Device) : Taken × Device := (if r.1 then .counted else .discarded, r.2)

/-- A two-wire address that TWI0 never answers (R342). -/
def neverAnswered (a : Nat) : Bool := decide (a < 8) || a == 0x0C || decide (0x78 ≤ a)

/-- Set bits of a number below 2^n. -/
def onesBelow (n a : Nat) : Nat := ((List.range n).filter a.testBit).length

/-- A register write changes no envelope: one of the value in force is accepted, any other discarded; an envelope changes
with a CONFIG key alone (R17, R300; DESIGN CHOICE, LOG 50). -/
def Device.envelopeWrite (d : Device) (m : Master) (o x : Nat) : Taken × Device :=
  d.storeIf (d.reg (homeOf m) depP o == cpWord x) m depP o (cpWord x)

/-- Buffers of the half's other queues plus 2^size, in units of 64 KiB (R245). -/
def Device.bufferSum (d : Device) (q size : Nat) : Nat :=
  ((List.range 512).map fun i =>
    let k := q / 512 * 512 + i
    if k = q then 2 ^ size else 2 ^ fld (d.reg .a (queP k) 0x40) 2 0).sum

/-- A configuration write that the queue's state or the buffer sum denies (R245, R261). -/
def Device.queDenied (d : Device) (m : Master) (q o : Nat) : Taken × Device :=
  (.discarded, (d.perr .a (queP q) 1).report (queHalf q)
    { unitReport (queUnit q) 0x58 (queP q) o with master := masterCode m, access := 1 })

def Device.queWrite (d : Device) (m : Master) (q o : Nat) (v : W32) : Taken × Device :=
  let p := queP q
  let x := d.queue q
  if o = 0x50 then took (d.doorbell m q v)
  else if o = 0x54 then took (d.rheadWrite q v)
  else if o = 0x64 then took (d.queueCommand q (fld v 2 0))
  else if x.st = .active ∨ x.st = .resetting then d.queDenied m q o
  else if o = 0x40 then
    let size := fld v 2 0
    if 4 < size ∨ fld v 23 16 = 0 then d.storeErr m p
    else if (x.st = .held ∧ size ≠ fld (d.reg .a p 0x40) 2 0) ∨ 2048 < d.bufferSum q size then d.queDenied m q o
    else d.store m p o v
  else if o = 0x4C ∧ 12 < fld v 3 0 then d.storeErr m p
  else d.store m p o v

def Device.twiWrite (d : Device) (m : Master) (k o : Nat) (v : W32) : Taken × Device :=
  let p := twiP k
  let lo := fld v 6 0
  let hi := fld v 14 8
  if k = 0 then
    if o = 0x40 then
      if fld v 11 8 = 0 ∨ 8 < fld v 11 8 then d.storeErr m p
      else d.storeIf (fld v 1 0 != 3 && decide (fld v 6 4 ≤ 5)) m p o v
    else if o = 0x4C then (if neverAnswered lo ∨ 2 < onesBelow 7 hi then d.storeErr m p else d.store m p o v)
    else if neverAnswered lo ∨ neverAnswered hi then d.storeErr m p
    else d.store m p o v
  else if o = 0x40 then
    if fld v 1 0 = 3 ∨ fld v 15 8 = 0 then d.storeErr m p
    else d.storeIf (decide (fld v 6 4 ≤ 5)) m p o v
  else if o = 0x48 then took (d.depqWrite m v)
  else if o = 0x50 then took (d.ovmqWrite m v)
  else d.store m p o v

/-- Write 1 to clear of the command flags of SLST and RSLST (R129). -/
def Slew.clear (s : Slew) (v : W32) : Slew :=
  { s with late := s.late && !bit v 3, superseded := s.superseded && !bit v 2, done := s.done && !bit v 1 }

/-- The header registers (R23-R27). -/
def Device.headerWrite (d : Device) (m : Master) (p : PageId) (o : Nat) (v : W32) : Taken × Device :=
  match o with
  | 0x10 => d.pctlWrite m p v false
  | 0x14 => (.uncounted, d.each (d.copies (homeOf m) p) fun d h => d.setReg h p 0x14 (d.reg h p 0x14 &&& ~~~v))
  | 0x1C => d.store m p o (w32 (fld v 4 4 * 16 + 8 + fld v 2 0))
  | _ => d.store m p o v

/-- A direct write that has passed every check of the fabric; `v` holds implemented bits alone. -/
def Device.direct (d : Device) (m : Master) (p : PageId) (o : Nat) (v : W32) : Taken × Device :=
  let n := p.2
  let h := pageHalf p.1 n
  if o < 0x40 then d.headerWrite m p o v
  else match p.1 with
    | .dev => took (d.linkCommand m v)
    | .tmb => d.storeIf (decide (1 ≤ v.toNat ∧ v.toNat ≤ 100)) m p o v
    | .txn =>
      if (o - 0x40) % 0x20 = 0 then took (d.ctlCommand m v) else d.storeIf (v != 0#32) m p o v
    | .nvm =>
      if o = 0x40 then (.counted, d.storeRegister m v)
      else if o = 0x58 then
        -- whether the fuses verify is the block's surroundings' (R309; DESIGN CHOICE, LOG 7)
        let (w, d) := d.fresh
        (.counted, d.arbAdvance (homeOf m) (fld v 6 0) (bit w 0))
      else d.store m p o v
    | .dep => d.envelopeWrite m o (low16 v)
    | .ovm =>
      if o = 0x44 then (.counted, if bit v 0 then d.each (d.copies (homeOf m) p) Device.serveHalf else d)
      else if o = 0x48 then (.counted, d.wdkick m)
      else d.store m p o v
    | .pdm =>
      match o with
      | 0x80 => d.store m p o (v ||| 0x8C#32)
      | 0x88 =>
        -- one field out of range discards the whole word (the spec says "discarded" of the value; DESIGN CHOICE, LOG 60)
        d.storeIf (decide (1 ≤ fld v 31 16 ∧ fld v 31 16 ≤ 3600 ∧ 1 ≤ fld v 15 8 ∧ fld v 15 8 ≤ 60)) m p o v
      | 0x90 => (.counted, d.each (d.copies (homeOf m) p) fun d h => d.setReg h p o (d.reg h p o &&& ~~~v))
      | _ => d.store m p o v
    | .clu => (.counted, d.modCluster n fun x => { x with slew := x.slew.clear v })
    | .lpe => if o = 0x140 then took (d.capWrite n v) else d.store m p o v
    | .ral => (.counted, d.modRail n fun x => { x with slew := x.slew.clear v })
    | .can =>
      if o = 0x40 then (if bit v 31 then took (d.releaseCapture h) else (.counted, d))
      else if o = 0x60 then took (d.canControl h v)
      else took (d.injReq m h v)
    | .canj => if o = 0x48 then took (d.injCommand m h v) else d.store m p o v
    | .twi => d.twiWrite m n o v
    | .lnk => d.storeIf (decide (1 ≤ v.toNat ∧ v.toNat ≤ 64)) m p o v
    | .bay => if o = 0x40 then took (d.bayControl n v) else d.storeIf (v != 0#32) m p o v
    | .mem =>
      d.storeIf (if o = 0x80 then decide (100 ≤ v.toNat ∧ v.toNat ≤ 6400) else v != 0#32) m p o v
    | .que => d.queWrite m n o v
    | .clk | .thm | .gov => d.store m p o v

/-! ## One write (R29-R36) -/

/-- A register whose command bits lie outside the bits it stores. -/
def commandBits (p : PageId) (o : Nat) (r : RegRow) : Nat :=
  match p.1 with
  | .lpe => if o = 0x140 then 0xFF1F else r.mask
  | .can => if o = 0x60 then 0xFF07 else r.mask
  | _ => r.mask

/-- The write of a register that reads RO to its master: an RO row, and the telemetry of R295 to all but service cores. -/
def readOnly (m : Master) (p : PageId) (o : Nat) (r : RegRow) : Bool :=
  match r.acc with
  | .ro => !(p.1 == .ovm && decide (0x400 ≤ o) && isOvm m)
  | _ => false

/-- The complement check of a CP write finds a mismatch; an armed injection of the fabric inverts what one check finds
(R32, R335). -/
def Device.cmplFails (d : Device) (m : Master) (v : W32) : Bool × Bool × Device :=
  match d.armedFor (homeOf m) 0x6E 0 with
  | none => (!cpOk v, false, d)
  | some _ => (cpOk v, true, d.consumeInjection (homeOf m))

/-- A CP write that fails its check: reported, and a transaction that it would have joined ends (R31, R38). -/
def Device.cmplError (d : Device) (m : Master) (p : PageId) (o : Nat) (tx injected : Bool) : Device :=
  let cs := d.copies (homeOf m) p
  let d := d.each cs fun d h => d.perr h p (2 ^ 16)
  let d := d.report (cs.headD .a) { accessReport m 0x05 (pageBase p + o) true with injected }
  let k := d.slotKey m (slotOf m)
  if tx ∧ (d.slotAt k).phase = .open then d.endSlot k .aborted rCmpl else d

/-- A write to a page of the far half while the halves are apart: discarded, and a transaction it would have joined ends
(R36; "When things fall together" of file 02). -/
def Device.farWrite (d : Device) (m : Master) (p : PageId) (o : Nat) (tx : Bool) : Device :=
  let off := pageBase p + o
  let d := d.report (homeOf m) (accessReport m 0x09 off true)
  let k := d.slotKey m (slotOf m)
  let t := d.slotAt k
  if tx ∧ t.phase = .open then (d.endSlot k .aborted rLink).report t.home (txnReport (masterCode m) 0x0E off) else d

/-- The master's open transaction would span the halves while they are not apart: a TX write to the far half ends it with
LINK at its staging alone (R38). -/
def Device.stagesFar (d : Device) (m : Master) : Bool :=
  !d.apart && (d.slotAt (d.slotKey m (slotOf m))).phase == .open

/-- An access to a reserved offset: counted as a NOTE, PERR.RSVD on a page the master reaches (R9, R23). Outside every page
the Canary of the requester's home half counts it (the spec names none; DESIGN CHOICE, LOG 60). -/
def Device.reserved (d : Device) (m : Master) (off : Nat) (write : Bool) : Device :=
  match pageAt off with
  | none => d.report (homeOf m) (accessReport m 0x02 off write)
  | some p =>
    if d.farPage m p then d.report (homeOf m) (accessReport m 0x02 off write)
    else d.accessError m p (off % 0x1000) 20 0x02 write

/-- A register is locked against this direct write: its page's own commit window, or any for an envelope (R42). -/
def Device.writeHeld (d : Device) (m : Master) (p : PageId) (o : Nat) : Bool :=
  d.pageLocked (copyOf m p) p || (p.1 == .dep && decide (0x80 ≤ o) && d.envelopesHeld)

/-- A direct write past the checks of ownership and complement. -/
def Device.directWrite (d : Device) (m : Master) (p : PageId) (o : Nat) (r : RegRow) (v : W32) : WriteEnd × Device :=
  if d.writeHeld m p o then (.held, d.hold (wordWrite m (pageBase p + o) v))
  else
    let v := if r.cp then v else v &&& w32 (commandBits p o r)
    let (t, d') := d.direct m p o (if r.cp ∧ p.1 = .dep then v &&& w32 r.mask else v)
    match t with
    | .counted => (.done, d'.each (d.copies (homeOf m) p) fun d h => d.bumpSeq h p)
    | .uncounted => (.done, d')
    | .discarded => (.refused, d')

/-- A TX write: staged in the master's open transaction, or Deputy's own in a HALT reaction, held while its page is locked
(R34, R38, R42). -/
def Device.txWrite (d : Device) (m : Master) (p : PageId) (o : Nat) (r : RegRow) (v : W32) : WriteEnd × Device :=
  if d.haltDirect m p then
    if (d.copies (homeOf m) p).any fun h => d.pageLocked h p then (.held, d.hold (wordWrite m (pageBase p + o) v))
    else (.done, d.haltWrite m p o r v)
  else
    let d' := d.stage m p o r v
    let k := d.slotKey m (slotOf m)
    let ok := (d.slotAt k).phase == .open && (d'.slotAt k).phase == .open
    (if ok then .done else .refused, d')

/-- One aligned 32-bit write by a master, checked in the order far half, domain, RO, POWN, CP, TX (R31). -/
def Device.busWrite (d : Device) (m : Master) (off : Nat) (v : W32) : WriteEnd × Device :=
  match (pageAt off).bind fun p => (findRow p (off % 0x1000)).map fun r => (p, r.1) with
  | none => (.refused, d.reserved m off true)
  | some (p, r) =>
    let o := off % 0x1000
    if d.farPage m p ∧ !(r.tx && d.stagesFar m) then (.refused, d.farWrite m p o r.tx)
    else if d.bodyOff (copyOf m p) p o then (.refused, d.accessError m p o 22 0x08 true)
    else if readOnly m p o r then (.refused, d.accessError m p o 21 0x04 true)
    else if !soleWriter m p o || !d.owns m p then (.owner, d.accessError m p o 17 0x03 true)
    else
      let (bad, inj, d) := if r.cp then d.cmplFails m v else (false, false, d)
      if bad then (.refused, d.cmplError m p o r.tx inj)
      else if r.tx then d.txWrite m p o r v
      else d.directWrite m p o r v

/-! ## One read (R22, R30, R31, R33, R35, R36, R54) -/

/-- A read of TBLO latches the upper word into the master's own snapshot (R54). -/
def Device.tbloRead (d : Device) (m : Master) : Device :=
  let t := d.tb (homeOf m)
  let d := { d with time := { d.time with snapshot := tset 0#32 (masterIdx m) ((t >>> 32).setWidth 32) d.time.snapshot } }
  d.returnRead m (t.setWidth 32)

def execTbloRead (m : Master) (s : State) : Host.Outcome State Fault Refusal :=
  runOn s fun d => d.ordered m 0x1040 fun d => d.tbloRead m

/-- The stored-pair check of a read of a CP register; an armed injection of a cluster's checker inverts what it finds
(R33, R335). -/
def Device.pairRead (d : Device) (m : Master) (p : PageId) (o : Nat) : Device :=
  let h := if p.1.isGlobal then homeOf m else pageHalf p.1 p.2
  let bad := !cpOk (d.reg h p o)
  let r : Report := { unit := unitOf p, kind := 0x06, master := masterCode m }
  match if p.1 = .clu ∨ p.1 = .lpe then d.armedFor h (p.2 % 36) 0 else none with
  | none => if bad then d.pairError h p o r else d
  | some _ =>
    let d := d.consumeInjection h
    if bad then d else d.pairError h p o { r with injected := true }

/-- A read that every check has let through. -/
def Device.readThrough (d : Device) (m : Master) (p : PageId) (o : Nat) (r : RegRow) : Device :=
  let h := copyOf m p
  if p = tmbP ∧ o = 0x40 then d.tbloRead m
  else if p = twiP 1 ∧ o = 0x54 then d.rspdRead m
  else if p = twiP 1 ∧ o = 0x58 then d.rspoRead m
  else if p.1 = .lpe ∧ o = 0x158 then d.capd3Read m p.2
  else
    let d := if r.cp then d.pairRead m p o else d
    let win := d.reg h nvmP 0x5C
    let far := p == nvmP && decide (0x800 ≤ o) && d.apart && (bit win 8 != (h == .b))
    let d' := d.returnRead m (d.view m h p o)
    let d' := if far then d'.report (homeOf m) (accessReport m 0x09 (pageBase p + o) false) else d'
    if p.1 = .mem ∧ 2 ≤ p.2 ∧ p.2 < 10 ∧ o = 0x40 then (d'.fresh).2 else d'

/-- One aligned 32-bit read by a master; the word it returns stands in its read data. -/
def Device.busRead (d : Device) (m : Master) (off : Nat) : Device :=
  match (pageAt off).bind fun p => (findRow p (off % 0x1000)).map fun r => (p, r.1) with
  | none => (d.reserved m off false).returnRead m 0#32
  | some (p, r) =>
    let o := off % 0x1000
    if d.farPage m p then d.farRead m p o
    else if d.bodyOff (copyOf m p) p o then (d.accessError m p o 22 0x08 false).returnRead m 0#32
    else d.readThrough m p o r

/-! ## The commands -/

/-- A request that is not one aligned DW: discarded, or read as 0 (R29). -/
def Device.misaligned (d : Device) (m : Master) (off : Nat) (write : Bool) : Device :=
  let d := match pageAt off with
    | none => d.report (homeOf m) (accessReport m 0x01 off write)
    | some p =>
      if d.farPage m p then d.report (homeOf m) (accessReport m 0x01 off write)
      else d.accessError m p (off % 0x1000) 19 0x01 write
  if write then d else d.returnRead m 0#32

/-- A poisoned write is discarded and reported (R242). -/
def Device.poisonedWrite (d : Device) (m : Master) (off : Nat) : Device :=
  d.report (homeOf m) { unit := 0x6D, kind := 0x54, addr := off, master := masterCode m, access := 1 }

/-- An access to BAR4: the MSI-X table and its Pending Bit Array, by aligned DWs; elsewhere it reads 0 and takes no write (R239, R242;
PRESUMED, LOG 53). -/
def Device.msixAccess (d : Device) (x : Access) : Device :=
  let off := x.offset.toNat
  let h := homeOf x.master
  let y := d.port h
  let whole := x.oneDword && off % 4 == 0
  match x.write with
  | some v =>
    if x.poisoned then d.poisonedWrite x.master off
    else if whole ∧ off < 0x1000 then
      (d.setPort h { y with vectors := tset (msixReset (off / 4)) (off / 4) v y.vectors }).sendWaiting h
    else d
  | none =>
    d.returnRead x.master
      (if !whole then 0#32
      else if off < 0x1000 then y.tableWord (off / 4)
      else if 0x8000 ≤ off ∧ off < 0x8020 then y.pendingWord ((off - 0x8000) / 4)
      else 0#32)

/-- One access, held behind what its master has held (R29, R30, R240, R242). A read of a window answers 0 (R248). -/
def Device.perform (d : Device) (x : Access) : Device :=
  let off := x.offset.toNat
  if d.holding x.master then d.hold x
  else match x.bar with
  | .window q bytes =>
    if x.write.isSome then d.windowWrite q (off % 0x10000) bytes x.poisoned else d.returnRead x.master 0#32
  | .msix => d.msixAccess x
  | .registers => match x.write with
    | some v =>
      if x.poisoned then d.poisonedWrite x.master off
      else if !x.oneDword ∨ off % 4 ≠ 0 then d.misaligned x.master off true
      else (d.busWrite x.master off v).2
    | none => if !x.oneDword ∨ off % 4 ≠ 0 then d.misaligned x.master off false else d.busRead x.master off

/-- An access arrives: nothing where its master's path is down. -/
def Device.access (d : Device) (x : Access) : Device := if d.reaches x.master then d.perform x else d

/-- A commit window may have ended: held accesses come again in arrival order; one whose page is still locked is held anew,
and what its master sent after it behind it (R30, R42). -/
def Device.releaseHeld (d : Device) : Device :=
  Device.each { d with txn := { d.txn with held := [] } } d.txn.held Device.access

/-- The port that serves a queue's window (R243). -/
def portMaster : Half → Master
  | .a => .hosta
  | .b => .hostb

/-- A posted write into a queue's window, in arrival order with the port's other writes (R240, R248). -/
def execWindowWrite (q : Fin 1024) (off : W16) (bytes : List Byte) (poisoned : Bool) (s : State) :
    Host.Outcome State Fault Refusal :=
  runOn s fun d => d.access
    { master := portMaster (queHalf q), offset := off.setWidth 24, write := some 0#32, oneDword := true, poisoned
      bar := .window q bytes }

def execRegisterWrite (acc : Access) (s : State) : Host.Outcome State Fault Refusal := runOn s fun d => d.access acc

/-- UNIT_RESET of the page at an offset; an offset of no page is a reserved one. -/
def Device.unitReset (d : Device) (m : Master) (off : Nat) (phase : ResetPhase) : Device :=
  match pageAt off with
  | none => if d.reaches m then d.reserved m off true else d
  | some p =>
    match phase with
    | .whole => d.resetStart m p false
    | .start => d.resetStart m p true
    | .finish => d.resetFinish m p

def execUnitReset (m : Master) (offset : BitVec 24) (phase : ResetPhase) (s : State) :
    Host.Outcome State Fault Refusal :=
  runOn s fun d => (d.unitReset m offset.toNat phase).releaseHeld

/-! ## The boundaries of a transaction (R40-R44) -/

/-- B1: the checks. A failure of a transaction of one half, and LINK, decide at once; another failure of a spanning one
waits for GO. -/
def Device.checkSlot (d : Device) (k : Nat) : Device :=
  let t := d.slotAt k
  if t.staged.isEmpty then d.endSlot k .done 0#4
  else
    match d.txnCheck k with
    | none => d.setSlot k { t with phase := .checked, found := 0#4 }
    | some (reason, kind, off) =>
      if t.spans && reason != rLink then
        d.setSlot k { t with phase := .checked, found := reason, fail := w32 off }
      else d.failSlot k reason kind off

/-- A grid signal of a slot that crosses badly is repeated at the next boundary; the slot's CTL stands for its signals (R51;
DESIGN CHOICE, LOG 58). -/
def Device.gridSignal (d : Device) (k : Nat) : Nat × Device :=
  let key := regKey (d.slotAt k).home txnP (0x40 + 0x20 * (k % 5))
  if d.cross.bad.contains key then
    (128, { d with cross := { d.cross with bad := d.cross.bad.filter (· != key) } })
  else (0, d)

def Device.checkBoundary (d : Device) (k : Nat) : Device :=
  let t := d.slotAt k
  if t.phase ≠ .committing then d
  else
    let (late, d) := d.gridSignal k
    let at1 := nextMultiple 128 t.accepted + BitVec.ofNat 64 late
    let d := ((d.advanceTo t.home at1).checkStored t.home depP).setSlot k { t with boundary := at1 }
    (d.checkSlot k).releaseHeld

def execCheckBoundary (slot : Fin 10) (s : State) : Host.Outcome State Fault Refusal :=
  runOn s fun d => d.checkBoundary slot

/-- The Canary kind of a reason (R38). -/
def reasonKind (r : BitVec 4) : Nat := if r = rDomain then 0x0D else if r = rConflict then 0x0B else 0x0C

/-- B2 of a spanning transaction: the coordinating half decides and sends GO (R40, R43). -/
def Device.goDecision (d : Device) (k : Nat) (inTime : Bool) : Device :=
  let t := d.slotAt k
  if t.phase ≠ .checked ∨ !t.spans then d
  else
    let d := d.advanceTo t.home (t.boundary + 128#64)
    let d := if !inTime || !d.crosscutUp then d.failSlot k rLink 0x0E (t.offsets.headD 0)
      else if t.found ≠ 0#4 then d.failSlot k t.found (reasonKind t.found) t.fail.toNat
      else d.setSlot k { t with phase := .gone }
    d.releaseHeld

def execGo (slot : Fin 10) (farResultInTime : Bool) (s : State) : Host.Outcome State Fault Refusal :=
  runOn s fun d => d.goDecision slot farResultInTime

/-- B2 of a transaction of one half, B3 of a spanning one: the writes apply, on the coordinating half alone where GO did
not reach the far half, and the held accesses after them (R42, R44). While ALIGNED is 0, each half applies at its own B3, the
half that is ahead first (R57). -/
def Device.applyBoundary (d : Device) (k : Nat) (goArrived : Bool) : Device :=
  let t := d.slotAt k
  let at_ (n : Nat) (late : Nat) : W64 := t.boundary + BitVec.ofNat 64 (n + late)
  match t.phase with
  | .checked =>
    if t.spans then d
    else
      let (late, d) := d.gridSignal k
      ((d.advanceTo t.home (at_ 128 late)).applySlot k [bothHalves] false).releaseHeld
  | .gone =>
    let (late, d) := d.gridSignal k
    let b3 := at_ 256 late
    if !goArrived then ((d.advanceTo t.home b3).applySlot k [[t.home]] true).releaseHeld
    else if bit (d.reg .a tmbP 0x48) 31 then ((d.advanceTo t.home b3).applySlot k [bothHalves] false).releaseHeld
    else
      let first := if d.time.tbA.toNat < d.time.tbB.toNat then Half.b else .a
      ((d.advanceTo first b3).applySlot k [[first], [first.other]] false).releaseHeld
  | _ => d

def execApplicationBoundary (slot : Fin 10) (goArrived : Bool) (s : State) : Host.Outcome State Fault Refusal :=
  runOn s fun d => d.applyBoundary slot goArrived

end Sys2Proof.Machine
end

