-- ==== Sys2Proof/Machine/TwiTarget.lean ====
section
/-! DEFINITION. TWI0, the two-wire target port, and the TWI frames of the bell line (R68, R341-R350, R359, R360, R366). -/

namespace Sys2Proof.Machine

/-! ## Addresses and contexts (R68, R342, R343) -/

/-- First address of the strap set. -/
def strapBase (s : BitVec 2) : Nat := [0x58, 0x5C, 0x68, 0x6C].getD s.toNat 0x58

/-- The don't-care bits of an address, packed from the lowest upward: the bits of a seven-bit mask from bit i on. -/
def packBits (mask a : Nat) : Nat → Nat → Nat
  | 0, _ => 0
  | n + 1, i => if mask.testBit i then flag (a.testBit i) 0 + 2 * packBits mask a n (i + 1) else packBits mask a n (i + 1)

/-- The context a message's address selects; none where TWI0 does not answer. -/
def Device.twiContext (d : Device) (addr : BitVec 7) : Option Nat :=
  let a := addr.toNat
  let reg (o : Nat) : W32 := d.reg .a (twiP 0) o
  if neverAnswered a ∨ !d.awake then none
  else match fld (reg 0x40) 1 0 with
    | 0 => if a / 4 * 4 = strapBase d.pins.addrSel then some (a % 4) else none
    | 1 =>
      ([fld (reg 0x44) 6 0, fld (reg 0x44) 14 8, fld (reg 0x48) 6 0, fld (reg 0x48) 14 8].zipIdx.find? fun e => e.1 == a).map
        fun e => e.2
    | 2 =>
      let base := fld (reg 0x4C) 6 0
      let mask := fld (reg 0x4C) 14 8
      if (List.range 7).all fun i => mask.testBit i || a.testBit i == base.testBit i then some (packBits mask a 7 0) else none
    | _ => none

def Device.twiCtx (d : Device) (c : Nat) : TwiCtx := tget {} d.twi.ctxs c
def Device.modCtx (d : Device) (c : Nat) (f : TwiCtx → TwiCtx) : Device :=
  d.modTwi fun t => { t with ctxs := tset {} c (f (tget {} t.ctxs c)) t.ctxs }

/-- Codes of the status byte (R347). -/
def twOk : Byte := 0x0#8
def twBusy : Byte := 0x1#8
def twOwn : Byte := 0x2#8
def twAlign : Byte := 0x3#8
def twPec : Byte := 0x4#8
def twTimeout : Byte := 0x5#8
def twBadCmd : Byte := 0x6#8
def twBadCount : Byte := 0x7#8
def twRefused : Byte := 0x8#8
def twAborted : Byte := 0x9#8

def Device.setStatus (d : Device) (c : Nat) (st : Byte) : Device := d.modCtx c fun x => { x with status := st }

/-- What TWI0 sends in a message; nothing where it sends nothing. -/
def Device.twiReply (d : Device) (bs : List Byte) : Device := d.modTwi fun t => { t with reply := bs }

/-- A message to a context that TWI0 answers: no other message is being stretched. An earlier write of the context is over
unless the message meets it still being applied. A command code outside the table is not acknowledged (R345). -/
def Device.twiMessage (d : Device) (msg : TwiMsg) (act : Device → Nat → Device) : Device :=
  if d.twi.ctxs.any (·.2.stretch.isSome) then d
  else match d.twiContext msg.addr with
    | none => d
    | some c =>
      let d := d.modCtx c fun x => { x with busy := x.busy && !msg.ready }
      if msg.unknown then (d.twiReply []).setStatus c twBadCmd else act (d.twiReply []) c

/-- The address byte of a message: a write, or a read. -/
def addrByte (msg : TwiMsg) (read : Bool) : Byte := BitVec.ofNat 8 (msg.addr.toNat * 2 + (if read then 1 else 0))

/-! ## Write messages (R345-R348) -/

/-- The PEC byte of a write message is wrong, or missing while required (R341, R348). -/
def Device.pecFails (d : Device) (msg : TwiMsg) (code : Byte) : Bool :=
  match msg.pec with
  | none => bit (d.reg .a (twiP 0) 0x40) 2
  | some b => b != pec (addrByte msg false :: code :: msg.count :: msg.data)

/-- A PEC failure: status, count, CLASSERR bit 1 and TWI_PEC_ERR. -/
def Device.pecError (d : Device) (c : Nat) : Device :=
  let d := (d.setStatus c twPec).modTwi fun t => { t with pecErrs := satInc t.pecErrs }
  (d.perr .a (twiP 0) 2).report .a (unitReport 0x6C 0x5A (twiP 0))

/-- A write message with its count in the table: one cut short before its end has no effect; its PEC decides before its
effect. -/
def Device.twiWriteMsg (d : Device) (msg : TwiMsg) (c : Nat) (code : Byte) (countOk : Bool) (act : Device → Device) : Device :=
  if !countOk then d.setStatus c twBadCount
  else if msg.data.length ≠ msg.count.toNat then d
  else if d.pecFails msg code then d.pecError c
  else act d

/-- An offset that is not a multiple of 4: PERR.ALIGN and ALIGN_ERR as for any access, and status ALIGN (R29, R345). -/
def Device.twiMisaligned (d : Device) (c off : Nat) (write : Bool) : Device :=
  (d.misaligned .twi off write).setStatus c twAlign

/-- A new pointer; an offset that is not a multiple of 4 leaves the old one. -/
def Device.setPointer (d : Device) (c : Nat) (data : List Byte) : Device :=
  let off := leNat data
  if off % 4 ≠ 0 then d.twiMisaligned c off true
  else d.modCtx c fun x => { x with pointer := BitVec.ofNat 24 off, status := twOk }

def execTwiSetPtr (msg : TwiMsg) (s : State) : Host.Outcome State Fault Refusal :=
  runOn s fun d => d.twiMessage msg fun d c =>
    d.twiWriteMsg msg c 0x01#8 (msg.count == 3#8) fun d => d.setPointer c msg.data

/-- The pointer moves on by one word with AUTOINC (R345). -/
def Device.advancePointer (d : Device) (c : Nat) : Device :=
  if bit (d.reg .a (twiP 0) 0x40) 3 then d.modCtx c fun x => { x with pointer := x.pointer + 4#24 } else d

/-- The words of a WRITE in order from index i; the first that fails ends the message (R346), and one that is held takes the
later ones with it (R30). -/
def Device.twiWords (c : Nat) : List W32 → Nat → Device → Device
  | [], _, d => d.setStatus c twOk
  | w :: ws, i, d =>
    let off := (d.twiCtx c).pointer.toNat
    let (r, d) := if d.holding .twi then (.held, d.hold (wordWrite .twi off w)) else d.busWrite .twi off w
    match r with
    | .done | .held => Device.twiWords c ws (i + 1) (d.advancePointer c)
    | .owner => d.setStatus c (twOwn + BitVec.ofNat 8 (16 * i))
    | .refused => d.setStatus c (twRefused + BitVec.ofNat 8 (16 * i))

/-- Little-endian words of a message. -/
def wordsOf : Nat → List Byte → List W32
  | 0, _ => []
  | n + 1, bs => w32 (leNat (bs.take 4)) :: wordsOf n (bs.drop 4)

def execTwiWrite (msg : TwiMsg) (s : State) : Host.Outcome State Fault Refusal :=
  runOn s fun d => d.twiMessage msg fun d c =>
    let n := msg.count.toNat
    d.twiWriteMsg msg c 0x11#8 (decide (4 ≤ n ∧ n ≤ 32 ∧ n % 4 = 0)) fun d =>
      (Device.twiWords c (wordsOf (n / 4) msg.data) 0 d).modCtx c fun x => { x with busy := !msg.ready }

/-! ## Read messages (R345, R347-R349) -/

/-- RDLEN words from the pointer, read inside the device in order. -/
def Device.twiReadWords (c : Nat) : Nat → Device → List Byte × Device
  | 0, d => ([], d)
  | n + 1, d =>
    let d := d.busRead .twi (d.twiCtx c).pointer.toNat
    let v := tget 0#32 d.txn.readData (masterIdx .twi)
    let (bs, d) := Device.twiReadWords c n (d.advancePointer c)
    (leBytes 4 v.toNat ++ bs, d)

/-- What a read sends: count and data, and a PEC byte over the bytes before them where the controller clocks one. -/
def Device.twiData (d : Device) (msg : TwiMsg) (sent bs : List Byte) : Device :=
  let out := BitVec.ofNat 8 bs.length :: bs
  d.twiReply (out ++ if msg.pec.isSome then [pec (sent ++ addrByte msg true :: out)] else [])

/-- Bytes a READ or READ_AT returns: 4 × RDLEN. -/
def Device.twiBytes (d : Device) : Nat := 4 * fld (d.reg .a (twiP 0) 0x40) 11 8

/-- RDLEN reads behind a held access of the port: they complete inside the device after it, and their result is discarded
(R30, R349). -/
def Device.twiHoldReads (c : Nat) : Nat → Device → Device
  | 0, d => d
  | n + 1, d =>
    let x : Access := { master := .twi, offset := (d.twiCtx c).pointer, write := none, oneDword := true, poisoned := false }
    Device.twiHoldReads c n ((d.hold x).advancePointer c)

/-- A read message. Data not ready within the stretch limit, behind a held access of the port for one, waits for
TWI_STRETCH_LIMIT. -/
def Device.twiSend (d : Device) (msg : TwiMsg) (c : Nat) (sent : List Byte) : Device :=
  if d.holding .twi then (Device.twiHoldReads c (d.twiBytes / 4) d).modCtx c fun x => { x with stretch := some true }
  else
    let (bs, d) := Device.twiReadWords c (d.twiBytes / 4) d
    if !msg.ready then d.modCtx c fun x => { x with stretch := some true }
    else (d.setStatus c twOk).twiData msg sent bs

def execTwiRead (msg : TwiMsg) (s : State) : Host.Outcome State Fault Refusal :=
  runOn s fun d => d.twiMessage msg fun d c => d.twiSend msg c [addrByte msg false, 0x10#8]

/-- READ_AT: the pointer, then a read; an offset that is not a multiple of 4 reads as zero bytes (R29). -/
def Device.twiReadAt (d : Device) (msg : TwiMsg) (c : Nat) : Device :=
  let sent := addrByte msg false :: 0x12#8 :: msg.count :: msg.data
  if msg.count ≠ 3#8 then d.setStatus c twBadCount
  else if msg.data.length ≠ 3 then d
  else if leNat msg.data % 4 ≠ 0 then
    (d.twiMisaligned c (leNat msg.data) false).twiData msg sent (List.replicate d.twiBytes 0#8)
  else (d.setPointer c msg.data).twiSend msg c sent

def execTwiReadAt (msg : TwiMsg) (s : State) : Host.Outcome State Fault Refusal :=
  runOn s fun d => d.twiMessage msg fun d c => d.twiReadAt msg c

/-- STATUS returns the status byte of the latest message; one that meets a write still being applied stretches. -/
def Device.twiStatus (d : Device) (msg : TwiMsg) (c : Nat) : Device :=
  let x := d.twiCtx c
  if x.busy then d.modCtx c fun x => { x with stretch := some false }
  else
    let tail := if msg.pec.isSome then [pec [addrByte msg false, 0x30#8, addrByte msg true, x.status]] else []
    d.twiReply (x.status :: tail)

def execTwiStatus (msg : TwiMsg) (s : State) : Host.Outcome State Fault Refusal :=
  runOn s fun d => d.twiMessage msg fun d c => d.twiStatus msg c

/-! ## Stretch limit and bus timeout (R349, R350) -/

/-- 1 ms of stretching: a read sends 0xFF for its data and is reported; a STATUS that waits for a write reads BUSY. -/
def Device.stretchLimit (d : Device) (c : Nat) : Device :=
  match (d.twiCtx c).stretch with
  | none => d
  | some read =>
    let d := (d.advanceBy .a ms).modCtx c fun x => { x with stretch := none }
    let d := d.modTwi fun t => { t with stretchErrs := satInc t.stretchErrs }
    if read then
      let n := d.twiBytes
      ((d.setStatus c twTimeout).twiReply (BitVec.ofNat 8 n :: List.replicate n 0xFF#8)).report .a
        (unitReport 0x6C 0x5B (twiP 0))
    else d.twiReply [twBusy]

def execTwiStretchLimit (ctx : Fin 4) (s : State) : Host.Outcome State Fault Refusal :=
  runOn s fun d => d.stretchLimit ctx

/-- SCL held low for 30 ms: the message in progress ends ABORTED. -/
def Device.twiStuck (d : Device) : Device :=
  if !d.awake then d
  else
    let d := d.advanceBy .a (30 * ms)
    let d := d.each ((d.twi.ctxs.filter (·.2.stretch.isSome)).map (·.1)) fun d c =>
      d.modCtx c fun x => { x with stretch := none, status := twAborted }
    let d := d.modTwi fun t => { t with timeouts := satInc t.timeouts, reply := [] }
    (d.perr .a (twiP 0) 4).report .a (unitReport 0x6C 0x5D (twiP 0) 0 1)

def execTwiBusStuck (s : State) : Host.Outcome State Fault Refusal := runOn s Device.twiStuck

/-! ## TWI frames (R360, R366) -/

/-- A TWI frame reaches a half: Deputy A's message of two words joins DEPQ on Half B, a response word reaches Deputy A. -/
def Device.twiFrame (d : Device) (h : Half) (payload : List Byte) : Device :=
  let d := d.bellFrame h
  if !(d.linkEnd h).bell then d
  else match h with
    | .b =>
      if payload.length ≠ 8 then d
      else if 16 ≤ d.twi.depq.length then d.perr .b (twiP 1) 2
      else
        let msg : PmMsg := { word0 := w32 (fieldAt payload 0 4), word1 := w32 (fieldAt payload 4 4), half := .a }
        (d.modTwi fun t => { t with depq := t.depq ++ [msg] }).pmSettle 40
    | .a => if payload.length = 4 then d.returnRead (.dep .a) (w32 (fieldAt payload 0 4)) else d

def execTwiFrame (h : Half) (payload : List Byte) (s : State) : Host.Outcome State Fault Refusal :=
  runOn s fun d => d.twiFrame h payload

end Sys2Proof.Machine
end

