-- ==== Sys2Proof/Machine/Windows.lean ====
section
/-! DEFINITION. The commands that may end a transaction slot inside its commit window from outside it: a safe state, a split, a reset, a
lost rail. The accesses held behind the window come again once the command is done (R38, R42, R369). -/

namespace Sys2Proof.Machine

def execCanaryReport (h : Half) (msg : Option CanMsg) (s : State) : Host.Outcome State Fault Refusal :=
  runOn s fun d => (d.canaryReport h msg).releaseHeld

def execNotice (h : Half) (s : State) : Host.Outcome State Fault Refusal :=
  runOn s fun d => (if d.awake then d.notice h else d).releaseHeld

def execSafeStateDomains (h : Half) (s : State) : Host.Outcome State Fault Refusal :=
  runOn s fun d => (d.safeDomains h).releaseHeld

def execHalfResetA (s : State) : Host.Outcome State Fault Refusal :=
  runOn s fun d => (if d.awake then d.halfReset .a else d).releaseHeld

def execHalfResetB (s : State) : Host.Outcome State Fault Refusal :=
  runOn s fun d => (if d.awake then d.halfReset .b else d).releaseHeld

def execDcmdOff (d : Fin 8) (s : State) : Host.Outcome State Fault Refusal :=
  runOn s fun x => (x.dcmd d 1).releaseHeld

def execDcmdReset (d : Fin 8) (s : State) : Host.Outcome State Fault Refusal :=
  runOn s fun x => (x.dcmd d 4).releaseHeld

def execVinUv (h : Half) (samples : List Volt) (s : State) : Host.Outcome State Fault Refusal :=
  runOn s fun d => (d.vinUv h samples).releaseHeld

def execPersthNAssertion (h : Half) (s : State) : Host.Outcome State Fault Refusal :=
  runOn s fun d => (d.persthFall h).releaseHeld

def execThermalScan (h : Half) (counts : List Nat) (s : State) : Host.Outcome State Fault Refusal :=
  runOn s fun d => (d.thermalScan h counts).releaseHeld

def execLinkCrcRetry (h : Half) (replayFailed : Bool) (s : State) : Host.Outcome State Fault Refusal :=
  runOn s fun d => (d.crcRetry h replayFailed).releaseHeld

def execLinkLaneRepair (h : Half) (bundle : Fin 64) (lane : BitVec 6) (s : State) : Host.Outcome State Fault Refusal :=
  runOn s fun d => (d.laneRepair h bundle lane).releaseHeld

def execLinkTallyTimeout (h : Half) (s : State) : Host.Outcome State Fault Refusal :=
  runOn s fun d => (d.tallyTimeout h).releaseHeld

def execSplitReq (h : Half) (reason : Byte) (s : State) : Host.Outcome State Fault Refusal :=
  runOn s fun d => (d.splitRequest h reason).releaseHeld

def execSplitGo (s : State) : Host.Outcome State Fault Refusal :=
  runOn s fun d => (d.splitGoArrives).releaseHeld

def execTrainingTimeout (h : Half) (unrepairable : Bool) (s : State) : Host.Outcome State Fault Refusal :=
  runOn s fun d => (d.trainingFails h unrepairable).releaseHeld

def execCellLimit (n : Fin 72) (c : Fin 8) (s : State) : Host.Outcome State Fault Refusal :=
  runOn s fun d => (d.cellLimit n c).releaseHeld

def execHardShortEvent (n : Fin 72) (c : Fin 8) (current : MilliAmp) (period : Nat) (s : State) :
    Host.Outcome State Fault Refusal :=
  runOn s fun d => (d.hardShort n c current period).releaseHeld

def execOvResume (n : Fin 72) (s : State) : Host.Outcome State Fault Refusal :=
  runOn s fun d => (d.ovResume n).releaseHeld

end Sys2Proof.Machine
end

