-- ==== Sys2Proof/Machine/Dispatch.lean ====
section
/-! DEFINITION. The effect of every command: one arm per constructor of Instr. -/

namespace Sys2Proof.Machine

open Sys2Proof

def exec (i : Instr) (s : State) : Host.Outcome State Fault Refusal :=
  match i with
  | .registerWrite acc => Sys2Proof.Machine.execRegisterWrite acc s
  | .txnBegin m slot tag => Sys2Proof.Machine.execTxnBegin m slot tag s
  | .txnCommit m slot tag => Sys2Proof.Machine.execTxnCommit m slot tag s
  | .txnAbort m slot tag => Sys2Proof.Machine.execTxnAbort m slot tag s
  | .txnTimeout slot => Sys2Proof.Machine.execTxnTimeout slot s
  | .checkBoundary slot => Sys2Proof.Machine.execCheckBoundary slot s
  | .go slot farResultInTime => Sys2Proof.Machine.execGo slot farResultInTime s
  | .applicationBoundary slot goArrived => Sys2Proof.Machine.execApplicationBoundary slot goArrived s
  | .unitReset m offset phase => Sys2Proof.Machine.execUnitReset m offset phase s
  | .tbloRead m => Sys2Proof.Machine.execTbloRead m s
  | .mgmtClkCount h edges => Sys2Proof.Machine.execMgmtClkCount h edges s
  | .mgmtClkLost h => Sys2Proof.Machine.execMgmtClkLost h s
  | .pllUnlock h pll => Sys2Proof.Machine.execPllUnlock h pll s
  | .xingCmpl h unit addr => Sys2Proof.Machine.execXingCmpl h unit addr s
  | .alignmentExchange => Sys2Proof.Machine.execAlignmentExchange s
  | .tbUnaligned h => Sys2Proof.Machine.execTbUnaligned h s
  | .vinLockoutRelease h samples => Sys2Proof.Machine.execVinLockoutRelease h samples s
  | .vinUv h samples => Sys2Proof.Machine.execVinUv h samples s
  | .vinOvWarn h samples => Sys2Proof.Machine.execVinOvWarn h samples s
  | .vinOv h samples => Sys2Proof.Machine.execVinOv h samples s
  | .porstN => Sys2Proof.Machine.execPorstN s
  | .porstNDeassertion straps bellUp => Sys2Proof.Machine.execPorstNDeassertion straps bellUp s
  | .warmN => Sys2Proof.Machine.execWarmN s
  | .deputyWatchdog h => Sys2Proof.Machine.execDeputyWatchdog h s
  | .persthNAssertion h => Sys2Proof.Machine.execPersthNAssertion h s
  | .persthNDeassertion h => Sys2Proof.Machine.execPersthNDeassertion h s
  | .wakeN => Sys2Proof.Machine.execWakeN s
  | .dcmdOn d => Sys2Proof.Machine.execDcmdOn d s
  | .dcmdOff d => Sys2Proof.Machine.execDcmdOff d s
  | .dcmdRetain d => Sys2Proof.Machine.execDcmdRetain d s
  | .dcmdReset d => Sys2Proof.Machine.execDcmdReset d s
  | .sequenceStep part m => Sys2Proof.Machine.execSequenceStep part m s
  | .pdSeqFail part reason => Sys2Proof.Machine.execPdSeqFail part reason s
  | .dormant => Sys2Proof.Machine.execDormant s
  | .softwareDeviceReset => Sys2Proof.Machine.execSoftwareDeviceReset s
  | .halfResetA => Sys2Proof.Machine.execHalfResetA s
  | .halfResetB => Sys2Proof.Machine.execHalfResetB s
  | .coldInhibitClear h => Sys2Proof.Machine.execColdInhibitClear h s
  | .selfwarmStart h => Sys2Proof.Machine.execSelfwarmStart h s
  | .selfwarmTimeout h => Sys2Proof.Machine.execSelfwarmTimeout h s
  | .innerLoopSample n m => Sys2Proof.Machine.execInnerLoopSample n m s
  | .slewDone n => Sys2Proof.Machine.execSlewDone n s
  | .slewLate n => Sys2Proof.Machine.execSlewLate n s
  | .outerLoopSample r m => Sys2Proof.Machine.execOuterLoopSample r m s
  | .cellTrimLimit n c => Sys2Proof.Machine.execCellTrimLimit n c s
  | .firingRotation n => Sys2Proof.Machine.execFiringRotation n s
  | .syncAcquire g periods => Sys2Proof.Machine.execSyncAcquire g periods s
  | .syncLocked g freq => Sys2Proof.Machine.execSyncLocked g freq s
  | .syncLost g => Sys2Proof.Machine.execSyncLost g s
  | .glideComplete g => Sys2Proof.Machine.execGlideComplete g s
  | .sensePointInvalid r k => Sys2Proof.Machine.execSensePointInvalid r k s
  | .sensePointValid r k => Sys2Proof.Machine.execSensePointValid r k s
  | .pulsePeriod r high period => Sys2Proof.Machine.execPulsePeriod r high period s
  | .followLost r => Sys2Proof.Machine.execFollowLost r s
  | .followResume r => Sys2Proof.Machine.execFollowResume r s
  | .plausibility n => Sys2Proof.Machine.execPlausibility n s
  | .capctlArm m n dec trig => Sys2Proof.Machine.execCapctlArm m n dec trig s
  | .capctlStop m n => Sys2Proof.Machine.execCapctlStop m n s
  | .capctlRel m n => Sys2Proof.Machine.execCapctlRel m n s
  | .captureTrigger n => Sys2Proof.Machine.execCaptureTrigger n s
  | .captureFull n => Sys2Proof.Machine.execCaptureFull n s
  | .capd3Read m n => Sys2Proof.Machine.execCapd3Read m n s
  | .cycleLimit n c current period => Sys2Proof.Machine.execCycleLimit n c current period s
  | .cellLimit n c => Sys2Proof.Machine.execCellLimit n c s
  | .hardShortEvent n c current period => Sys2Proof.Machine.execHardShortEvent n c current period s
  | .brakeEntry n => Sys2Proof.Machine.execBrakeEntry n s
  | .brakeExit n => Sys2Proof.Machine.execBrakeExit n s
  | .ov n => Sys2Proof.Machine.execOv n s
  | .ovResume n => Sys2Proof.Machine.execOvResume n s
  | .uv n => Sys2Proof.Machine.execUv n s
  | .senseLost n => Sys2Proof.Machine.execSenseLost n s
  | .lullTimeout h k => Sys2Proof.Machine.execLullTimeout h k s
  | .oneMsBoundary => Sys2Proof.Machine.execOneMsBoundary s
  | .frequencyRequest h => Sys2Proof.Machine.execFrequencyRequest h s
  | .pllLockComplete h => Sys2Proof.Machine.execPllLockComplete h s
  | .frequencySwitch h => Sys2Proof.Machine.execFrequencySwitch h s
  | .dvfsLockFail h => Sys2Proof.Machine.execDvfsLockFail h s
  | .thermalScan h counts => Sys2Proof.Machine.execThermalScan h counts s
  | .thmSensorFault h k => Sys2Proof.Machine.execThmSensorFault h k s
  | .sensorValid h k => Sys2Proof.Machine.execSensorValid h k s
  | .opMma k e => Sys2Proof.Machine.execOpMma k e s
  | .opAccout k e => Sys2Proof.Machine.execOpAccout k e s
  | .opAdd k e => Sys2Proof.Machine.execOpAdd k e s
  | .opMul k e => Sys2Proof.Machine.execOpMul k e s
  | .opFma k e => Sys2Proof.Machine.execOpFma k e s
  | .opMin k e => Sys2Proof.Machine.execOpMin k e s
  | .opMax k e => Sys2Proof.Machine.execOpMax k e s
  | .opCmp k e => Sys2Proof.Machine.execOpCmp k e s
  | .opSel k e => Sys2Proof.Machine.execOpSel k e s
  | .opExp k e => Sys2Proof.Machine.execOpExp k e s
  | .opRecip k e => Sys2Proof.Machine.execOpRecip k e s
  | .opRsqrt k e => Sys2Proof.Machine.execOpRsqrt k e s
  | .opRowsum k e => Sys2Proof.Machine.execOpRowsum k e s
  | .opRowmax k e => Sys2Proof.Machine.execOpRowmax k e s
  | .opCvt k e => Sys2Proof.Machine.execOpCvt k e s
  | .opSample k e => Sys2Proof.Machine.execOpSample k e s
  | .tallyMessage slot stream kind => Sys2Proof.Machine.execTallyMessage slot stream kind s
  | .tileMove m => Sys2Proof.Machine.execTileMove m s
  | .tileMoveDone m r => Sys2Proof.Machine.execTileMoveDone m r s
  | .stepBoundary slot => Sys2Proof.Machine.execStepBoundary slot s
  | .tallyStall slot stream => Sys2Proof.Machine.execTallyStall slot stream s
  | .bayLockup k => Sys2Proof.Machine.execBayLockup k s
  | .tmFault m => Sys2Proof.Machine.execTmFault m s
  | .stepRepeat slot lost => Sys2Proof.Machine.execStepRepeat slot lost s
  | .bayHold m k => Sys2Proof.Machine.execBayHold m k s
  | .windowWrite q off bytes poisoned => Sys2Proof.Machine.execWindowWrite q off bytes poisoned s
  | .doorbell m q v => Sys2Proof.Machine.execDoorbell m q v s
  | .rhead m q v => Sys2Proof.Machine.execRhead m q v s
  | .qEnable m q => Sys2Proof.Machine.execQEnable m q s
  | .qDisable m q => Sys2Proof.Machine.execQDisable m q s
  | .qReset m q => Sys2Proof.Machine.execQReset m q s
  | .qResume m q => Sys2Proof.Machine.execQResume m q s
  | .qResync m q => Sys2Proof.Machine.execQResync m q s
  | .request q => Sys2Proof.Machine.execRequest q s
  | .continuePacket q => Sys2Proof.Machine.execContinuePacket q s
  | .cancel q => Sys2Proof.Machine.execCancel q s
  | .sessionOpen q => Sys2Proof.Machine.execSessionOpen q s
  | .sessionClose q => Sys2Proof.Machine.execSessionClose q s
  | .loadBegin q => Sys2Proof.Machine.execLoadBegin q s
  | .loadData q => Sys2Proof.Machine.execLoadData q s
  | .loadEnd q => Sys2Proof.Machine.execLoadEnd q s
  | .lodePlaced slot => Sys2Proof.Machine.execLodePlaced slot s
  | .unload q => Sys2Proof.Machine.execUnload q s
  | .fwBegin q => Sys2Proof.Machine.execFwBegin q s
  | .fwData q => Sys2Proof.Machine.execFwData q s
  | .fwEnd q => Sys2Proof.Machine.execFwEnd q s
  | .serve m => Sys2Proof.Machine.execServe m s
  | .serveTimeout h => Sys2Proof.Machine.execServeTimeout h s
  | .wdkick m => Sys2Proof.Machine.execWdkick m s
  | .ovmWatchdog h => Sys2Proof.Machine.execOvmWatchdog h s
  | .ovmBusViolation core write addr => Sys2Proof.Machine.execOvmBusViolation core write addr s
  | .envVmin q => Sys2Proof.Machine.execEnvVmin q s
  | .envVmax q => Sys2Proof.Machine.execEnvVmax q s
  | .envImax q => Sys2Proof.Machine.execEnvImax q s
  | .envPceil q => Sys2Proof.Machine.execEnvPceil q s
  | .envTtrip q => Sys2Proof.Machine.execEnvTtrip q s
  | .envDommask q => Sys2Proof.Machine.execEnvDommask q s
  | .ovmWdtime q => Sys2Proof.Machine.execOvmWdtime q s
  | .ovmRestart q => Sys2Proof.Machine.execOvmRestart q s
  | .keyPown q => Sys2Proof.Machine.execKeyPown q s
  | .keyPmbusAddr q => Sys2Proof.Machine.execKeyPmbusAddr q s
  | .store src => Sys2Proof.Machine.execStore src s
  | .storeComplete readBackOk => Sys2Proof.Machine.execStoreComplete readBackOk s
  | .arbAdvance src verified => Sys2Proof.Machine.execArbAdvance src verified s
  | .weightShort q => Sys2Proof.Machine.execWeightShort q s
  | .weightInteractive q => Sys2Proof.Machine.execWeightInteractive q s
  | .weightBulk q => Sys2Proof.Machine.execWeightBulk q s
  | .weightBackground q => Sys2Proof.Machine.execWeightBackground q s
  | .quantum q => Sys2Proof.Machine.execQuantum q s
  | .batchmax q => Sys2Proof.Machine.execBatchmax q s
  | .steptok q => Sys2Proof.Machine.execSteptok q s
  | .prefillchunk q => Sys2Proof.Machine.execPrefillchunk q s
  | .capdelta q => Sys2Proof.Machine.execCapdelta q s
  | .teleperiod q => Sys2Proof.Machine.execTeleperiod q s
  | .telemetryUpdate => Sys2Proof.Machine.execTelemetryUpdate s
  | .ringWrite q => Sys2Proof.Machine.execRingWrite q s
  | .mailboxWrite q => Sys2Proof.Machine.execMailboxWrite q s
  | .msixMessage q => Sys2Proof.Machine.execMsixMessage q s
  | .busMasterEnable port enabled d0 => Sys2Proof.Machine.execBusMasterEnable port enabled d0 s
  | .saturated => Sys2Proof.Machine.execSaturated s
  | .canaryReport h msg => Sys2Proof.Machine.execCanaryReport h msg s
  | .notice h => Sys2Proof.Machine.execNotice h s
  | .release m h => Sys2Proof.Machine.execRelease m h s
  | .cntclr m h => Sys2Proof.Machine.execCntclr m h s
  | .safeStateDomains h => Sys2Proof.Machine.execSafeStateDomains h s
  | .haltEscalation h => Sys2Proof.Machine.execHaltEscalation h s
  | .injreq m h v => Sys2Proof.Machine.execInjreq m h v s
  | .injcmdArm m h => Sys2Proof.Machine.execInjcmdArm m h s
  | .injcmdCancel m h => Sys2Proof.Machine.execInjcmdCancel m h s
  | .twiSetPtr msg => Sys2Proof.Machine.execTwiSetPtr msg s
  | .twiRead msg => Sys2Proof.Machine.execTwiRead msg s
  | .twiWrite msg => Sys2Proof.Machine.execTwiWrite msg s
  | .twiReadAt msg => Sys2Proof.Machine.execTwiReadAt msg s
  | .twiStatus msg => Sys2Proof.Machine.execTwiStatus msg s
  | .twiStretchLimit ctx => Sys2Proof.Machine.execTwiStretchLimit ctx s
  | .twiBusStuck => Sys2Proof.Machine.execTwiBusStuck s
  | .depq1 m v => Sys2Proof.Machine.execDepq1 m v s
  | .ovmq1 m v => Sys2Proof.Machine.execOvmq1 m v s
  | .rspd m => Sys2Proof.Machine.execRspd m s
  | .rspo m => Sys2Proof.Machine.execRspo m s
  | .pmOperation r => Sys2Proof.Machine.execPmOperation r s
  | .pmClearFaults r => Sys2Proof.Machine.execPmClearFaults r s
  | .pmVoutMode r => Sys2Proof.Machine.execPmVoutMode r s
  | .pmStatusWord r => Sys2Proof.Machine.execPmStatusWord r s
  | .pmStatusVout r => Sys2Proof.Machine.execPmStatusVout r s
  | .pmStatusIout r => Sys2Proof.Machine.execPmStatusIout r s
  | .pmStatusInput r => Sys2Proof.Machine.execPmStatusInput r s
  | .pmStatusTemperature r => Sys2Proof.Machine.execPmStatusTemperature r s
  | .pmReadVin r => Sys2Proof.Machine.execPmReadVin r s
  | .pmReadVout r => Sys2Proof.Machine.execPmReadVout r s
  | .pmReadIout r => Sys2Proof.Machine.execPmReadIout r s
  | .pmReadTemperature1 r => Sys2Proof.Machine.execPmReadTemperature1 r s
  | .pmReadPout r => Sys2Proof.Machine.execPmReadPout r s
  | .pmbusRetry r => Sys2Proof.Machine.execPmbusRetry r s
  | .twiArbLost => Sys2Proof.Machine.execTwiArbLost s
  | .busClear r => Sys2Proof.Machine.execBusClear r s
  | .poll => Sys2Proof.Machine.execPoll s
  | .linkCrcRetry h replayFailed => Sys2Proof.Machine.execLinkCrcRetry h replayFailed s
  | .linkLaneRepair h bundle lane => Sys2Proof.Machine.execLinkLaneRepair h bundle lane s
  | .linkTallyTimeout h => Sys2Proof.Machine.execLinkTallyTimeout h s
  | .heartbeat h => Sys2Proof.Machine.execHeartbeat h s
  | .tbAlign offset => Sys2Proof.Machine.execTbAlign offset s
  | .splitReq h reason => Sys2Proof.Machine.execSplitReq h reason s
  | .splitGo => Sys2Proof.Machine.execSplitGo s
  | .splitAck => Sys2Proof.Machine.execSplitAck s
  | .powerBin h bin => Sys2Proof.Machine.execPowerBin h bin s
  | .nvmFrame h payload => Sys2Proof.Machine.execNvmFrame h payload s
  | .twiFrame h payload => Sys2Proof.Machine.execTwiFrame h payload s
  | .retrainFrame h payload => Sys2Proof.Machine.execRetrainFrame h payload s
  | .bellSilent h => Sys2Proof.Machine.execBellSilent h s
  | .retrainRequest m v => Sys2Proof.Machine.execRetrainRequest m v s
  | .trainingDone => Sys2Proof.Machine.execTrainingDone s
  | .trainingTimeout h unrepairable => Sys2Proof.Machine.execTrainingTimeout h unrepairable s
  | .vauxOutOfRange => Sys2Proof.Machine.execVauxOutOfRange s
  | .poolRefill h => Sys2Proof.Machine.execPoolRefill h s
  | .pcieLinkErr err => Sys2Proof.Machine.execPcieLinkErr err s
  | .backgroundScrub h r => Sys2Proof.Machine.execBackgroundScrub h r s

end Sys2Proof.Machine
end

