-- ==== Sys2Proof/Machine/Step.lean ====
section
/-! DEFINITION. One step of the block: the command at the front of the queue, or the passing of one AONCLK cycle. -/

namespace Sys2Proof.Machine

/-- Take the command at the front and run it on the block with the rest of the queue; with no command waiting, one
AONCLK cycle passes (DESIGN CHOICE, LOG 2). -/
def step (s : State) : Host.Outcome State Fault Refusal :=
  match s.pending with
  | [] => runOn s Device.tick
  | i :: rest => exec i { s with pending := rest }

/-- The state with the command that a word spells put at the front of the queue. No row of the table gives bits, so no
word spells a command and the state is unchanged (DESIGN CHOICE, LOG 1). -/
def State.withFetchWord (s : State) (nbits w : Nat) : State :=
  match decodeTableWord nbits w with
  | none => s
  | some i => { s with pending := i :: s.pending }

end Sys2Proof.Machine
end

