-- ==== Sys2Proof/WellFormed.lean ====
section
/-! DEFINITION. The commands an outside of the stated shape can send: what a measurement, a frame, a message or a
burst of bytes holds as spec/ counts it. Every meaning is total on ill-formed commands too. -/

namespace Sys2Proof

/-- A read carries no data, so it cannot arrive poisoned (R31, R242). A queue's window is reached through the port of its
half, and BAR4 through either port (R239). -/
def Access.wellFormed (a : Access) : Bool :=
  (!a.poisoned || a.write.isSome)
    && match a.bar, a.master with
      | .registers, _ => true
      | .window q bytes, .hosta => decide (q.val < 512) && a.write.isNone == bytes.isEmpty
      | .window q bytes, .hostb => decide (512 ≤ q.val) && a.write.isNone == bytes.isEmpty
      | .msix, m => m == .hosta || m == .hostb
      | .window _ _, _ => false

/-- One current for each of the eight cells (R108, R112). -/
def InnerMeas.wellFormed (m : InnerMeas) : Bool := m.cells.length == 8

/-- One remote and one local voltage for each cluster of the part (R117). -/
def StartMeas.wellFormed (m : StartMeas) (part : Nat) : Bool :=
  m.remote.length == (Machine.partClusters part).length && m.loc.length == (Machine.partClusters part).length

/-- Four sense points, and VSETA as a 12-bit conversion (R142, R146). -/
def OuterMeas.wellFormed (m : OuterMeas) : Bool := m.sense.length == 4 && decide (m.vseta < 4096)

/-- A block transfer of two-wire port 0 holds at most 255 bytes after its count (R345). -/
def TwiMsg.wellFormed (m : TwiMsg) : Bool := decide (m.data.length ≤ 255)

/-- The half-wide sites of a memory error name bytes of existing structures; each of their fields is a bounded number. -/
def MemRead.wellFormed : MemRead → Bool
  | .uncorrectable (.seamTensor _ t) | .uncorrectable (.homeTensor _ t) => decide (t < 2 ^ 32)
  | _ => true

/-- The command has the shape the manual gives it. -/
def Instr.wellFormed : Instr → Bool
  | .registerWrite acc => acc.wellFormed
  | .vinLockoutRelease _ xs | .vinUv _ xs | .vinOvWarn _ xs | .vinOv _ xs => xs.length == 4
  | .sequenceStep p m => m.wellFormed p.val
  | .pdSeqFail _ r => decide (1 ≤ r.toNat ∧ r.toNat ≤ 8)
  | .innerLoopSample _ m => m.wellFormed
  | .outerLoopSample _ m => m.wellFormed
  | .syncAcquire _ ps => ps.length == 16
  | .pulsePeriod _ high period => decide (0 < period ∧ high ≤ period)
  | .thermalScan _ cs => cs.length == 60
  | .windowWrite _ off bs _ => decide (off.toNat + bs.length ≤ 0x10000)
  | .tileMoveDone _ r | .backgroundScrub _ r => r.wellFormed
  | .powerBin _ b => decide (b < 2 ^ 32)
  | .nvmFrame _ p => decide (1 ≤ p.length ∧ p.length ≤ 255)
  | .twiFrame _ p => decide (1 ≤ p.length ∧ p.length ≤ 16)
  | .twiSetPtr m | .twiRead m | .twiWrite m | .twiReadAt m | .twiStatus m => m.wellFormed
  | _ => true

end Sys2Proof
end

