-- ==== Sys2Proof/Safety.lean ====
section
/-! DEFINITION. The terms in which claims about the block are stated: what a run of waiting commands is, what a page lets a
master do, and what an effect leaves alone. -/

namespace Sys2Proof.Machine

/-- A run of k steps answers a state at which the oldest k commands are gone and the others wait in their order. -/
def drains (s : State) (k : Nat) : Prop :=
  ∃ t, Sys2Proof.core.run k s = .next t ∧ t.pending = s.pending.drop k

/-- The register map is in canonical form: keys rise and no listed word is its reset value. -/
abbrev regsCanonical (s : State) : Prop := tabWf regReset s.dev.regs = true

/-- An access of a master arrives: its path is up, and none of its accesses is held behind a commit window (R30). -/
abbrev arrives (d : Device) (m : Master) : Prop := d.reaches m = true ∧ d.holding m = false

/-- A direct write of a master reaches a page's register: it arrives, the page is not far, its body is powered, the master may
write it and no commit window locks it (R31, R35, R36, R42). -/
abbrev passes (d : Device) (m : Master) (p : PageId) (off : Nat) : Prop :=
  arrives d m ∧ d.farPage m p = false ∧ d.bodyOff (copyOf m p) p off = false ∧ soleWriter m p off = true ∧ d.owns m p = true
    ∧ d.pageLocked (copyOf m p) p = false

/-- A register's word, and the word its unit uses of it, have not changed (R51). -/
abbrev keeps (d e : Device) (k : Nat) : Prop := e.word k = d.word k ∧ e.used k = d.used k

/-- The device d with the register words of e. -/
abbrev withRegs (d e : Device) : Device := { d with regs := e.regs, cross := { d.cross with inUse := e.cross.inUse } }

/-- The page's PSEQ is one higher on every copy the master's write reaches, and no other register word has changed (R27). -/
def countsOnce (d e : Device) (m : Master) (p : PageId) : Prop :=
  (∀ h ∈ d.copies (homeOf m) p, e.reg h p 0x24 = d.reg h p 0x24 + 1#32)
    ∧ ∀ k, (∀ h ∈ d.copies (homeOf m) p, k ≠ regKey h p 0x24) → keeps d e k

/-- No register word has changed but those of some keys. -/
def wordsKept (d e : Device) (ks : List Nat) : Prop := ∀ k, k ∉ ks → keeps d e k

/-- One half's Canary has one report more to accept, and nothing else of either Canary has changed. -/
def reported (d e : Device) (h : Half) (r : Report) : Prop :=
  e.canary h = { d.canary h with inFlight := (d.canary h).inFlight ++ [r.message h] } ∧ e.canary h.other = d.canary h.other

/-- Overman of a half has an interrupt pending, beside those it had; the other half's Overman has not changed (R114, R192). -/
def interrupted (d e : Device) (h : Half) (q : OvmIrq) : Prop :=
  e.ovman h = { d.ovman h with irqs := (e.ovman h).irqs } ∧ q ∈ (e.ovman h).irqs
    ∧ (∀ x ∈ (d.ovman h).irqs, x ∈ (e.ovman h).irqs) ∧ e.ovman h.other = d.ovman h.other

/-- CLK[0].LOCK shows the lock of a sync group's PLL in both copies, and no other register has changed (R48). -/
def relocked (d e : Device) (g : Fin 4) (on : Bool) : Prop :=
  (∀ h, bit (e.reg h clkP 0x40) (16 * (syncHalf g).idx + (5 + g.val % 2)) = on)
    ∧ wordsKept d e [regKey .a clkP 0x40, regKey .b clkP 0x40]

/-- What a warm reset leaves: its bit of RSTCAUSE set in both copies, the pins and the timebases as they were, and no transaction,
request, session or lode (R99-R101). -/
def warmed (d e : Device) (bitNo : Nat) : Prop :=
  e.pins = d.pins ∧ e.time.tbA = d.time.tbA ∧ e.time.tbB = d.time.tbB
    ∧ (∀ h, bit (e.reg h pdmP 0x90) bitNo = true)
    ∧ (∀ k, (e.slotAt k).phase = .idle) ∧ e.service.requests = [] ∧ e.service.sessions = []
    ∧ ∀ l, (e.lode l).st = .empty

/-- What a half reset leaves: its bit of RSTCAUSE set in both copies, the pins and the timebases as they were, the half's clusters
and bays at reset but for what the retirement record marks, and no request or session of the half's queues (R99-R101, R378). -/
def halved (d e : Device) (h : Half) : Prop :=
  e.pins = d.pins ∧ e.time.tbA = d.time.tbA ∧ e.time.tbB = d.time.tbB
    ∧ (∀ g : Half, bit (e.reg g pdmP 0x90) (5 + h.idx) = true)
    ∧ (∀ n, cluHalf n = h → (∀ c ∈ d.power.retiredCells, c / 8 ≠ n) → e.cluster n = {})
    ∧ (∀ k, bayHalf k = h → e.bay k = {} ∨ e.bay k = { retired := true })
    ∧ (∀ r ∈ e.service.requests, queHalf r.queue ≠ h) ∧ ∀ c ∈ e.service.sessions, queHalf c.queue ≠ h

/-- The command of an operation code on a bay (R222). -/
def opCommand (c : Instr) (k : Fin 56) (ecc : Ecc) (code : Nat) : Prop :=
  (c = .opMma k ecc ∧ code = 0x01) ∨ (c = .opAccout k ecc ∧ code = 0x02) ∨ (c = .opAdd k ecc ∧ code = 0x10)
    ∨ (c = .opMul k ecc ∧ code = 0x11) ∨ (c = .opFma k ecc ∧ code = 0x12) ∨ (c = .opMin k ecc ∧ code = 0x13)
    ∨ (c = .opMax k ecc ∧ code = 0x14) ∨ (c = .opCmp k ecc ∧ code = 0x15) ∨ (c = .opSel k ecc ∧ code = 0x16)
    ∨ (c = .opExp k ecc ∧ code = 0x17) ∨ (c = .opRecip k ecc ∧ code = 0x18) ∨ (c = .opRsqrt k ecc ∧ code = 0x19)
    ∨ (c = .opRowsum k ecc ∧ code = 0x1A) ∨ (c = .opRowmax k ecc ∧ code = 0x1B) ∨ (c = .opCvt k ecc ∧ code = 0x1C)
    ∨ (c = .opSample k ecc ∧ code = 0x20)

/-- A bay in service comes to an op of its lode's step, and writes none (R214). -/
abbrev opTurn (d : Device) (k code l : Nat) (o : OpWord) : Prop :=
  d.currentOp k = some (l, o) ∧ o.operation = code ∧ (d.bay k).done = false ∧ d.bayUsable k = true
    ∧ (d.lode l).stepping = true ∧ (d.bay k).firing = false

/-- The level of an op is drawn at once (R185, R187). -/
abbrev opDraws (d : Device) (k l : Nat) (o : OpWord) : Prop :=
  (d.draw (bayHalf k) (k % 28) (d.bayCost (bayHalf k) (k % 28) ((d.lode l).costOf o))).1 = true

/-- The op fires: it holds every data tally, a space tally and its power, and no injection waits for the bay's check (R214, R335). -/
abbrev opFires (d : Device) (k code l : Nat) (o : OpWord) : Prop :=
  opTurn d k code l o ∧ (d.lode l).hasData o = true ∧ (d.lode l).hasSpace o = true ∧ opDraws d k l o
    ∧ d.armedFor (bayHalf k) (0x30 + k % 28) 0 = none

/-- What an op that fires leaves: it is counted; with a good or corrected buffer word its input tiles are gone, its accumulator result
stands in the buffer or its token with Overman, and it has retired or goes on writing; an uncorrectable word isolates the bay
(R206, R207, R213, R222, R232, R233). -/
def opFired (d e : Device) (k : Nat) (ecc : Ecc) (l : Nat) (o : OpWord) : Prop :=
  let b := d.bay k
  let x := d.lode l
  let ta := x.inputTiles o.a 0 (o.reads x)
  (∀ j, j ≠ k → e.bay j = d.bay j) ∧ (e.bay k).ops = b.ops + 1#32
    ∧ (ecc ≠ .uncorrectable → e = { d with compute := e.compute, govs := e.govs, cans := e.cans }
      ∧ (((e.bay k).op = b.op + 1 ∧ (e.bay k).firing = false) ∨ ((e.bay k).op = b.op ∧ (e.bay k).firing = true))
      ∧ (∀ i n, (o.inputs x).filter (·.1 == i) = [(i, n)] → endType (x.stream i).consumer = 0 →
          ((e.lode l).stream i).data = (x.stream i).data - n)
      ∧ (o.operation ≠ 0x20 → (e.bay k).buffer =
          match (opResult x b o ta (x.inputTiles o.b (if o.a = o.b then o.reads x else 0) 1)).1 with
          | none => b.buffer
          | some bs => putBytes b.buffer (o.acc.toNat * 16384) bs)
      ∧ (o.operation = 0x20 → (e.bay k).buffer = b.buffer ∧ ∀ r, d.rowRequest l (fld o.param 15 0) = some r →
          (e.lode l).sampled = x.sampled ++ [(fld o.param 15 0, (sampleToken r (logitsOf o.inFmt x.vocab ta)).map w32)]))
    ∧ (ecc = .clean → e.cans = d.cans ∧ (e.bay k).corrected = b.corrected)
    ∧ (ecc = .corrected → (e.bay k).corrected = satInc b.corrected
        ∧ reported d e (bayHalf k) { unit := 0x30 + k % 28, kind := 0x49, addr := pageBase (bayP k) })
    ∧ (ecc = .uncorrectable → (e.bay k).isolated = true ∧ (e.bay k).uncorrect = satInc b.uncorrect ∧ (e.bay k).buffer = []
        ∧ e.lode l = x ∧ reported d e (bayHalf k) { unit := 0x30 + k % 28, kind := 0x4A, addr := pageBase (bayP k) })

/-- What an op that waits leaves: one wait counted where one kind of tally or its power is lacking, and nothing else but what the
governor's level has drawn (R185, R214, R233). -/
def opWaits (d e : Device) (k l : Nat) (o : OpWord) : Prop :=
  let b := d.bay k
  let x := d.lode l
  (x.hasData o = false → x.hasSpace o = false → e = d)
    ∧ (x.hasData o = false → x.hasSpace o = true → e = d.setBay k { b with waitD := satInc b.waitD })
    ∧ (x.hasData o = true → x.hasSpace o = false → e = d.setBay k { b with waitS := satInc b.waitS })
    ∧ (x.hasData o = true → x.hasSpace o = true → ¬ opDraws d k l o →
        e = { d with compute := { d.compute with bays := e.compute.bays }, govs := e.govs }
        ∧ e.bay k = { b with waitP := satInc b.waitP } ∧ (∀ j, j ≠ k → e.bay j = d.bay j)
        ∧ e.gov (bayHalf k).other = d.gov (bayHalf k).other)

/-- The block at the check boundary of a slot: time has passed to the first multiple of 128 counts after COMMIT (R40). -/
def Device.atCheck (d : Device) (k : Nat) : Device :=
  (d.advanceTo (d.slotAt k).home (nextMultiple 128 (d.slotAt k).accepted)).setSlot k
    { d.slotAt k with boundary := nextMultiple 128 (d.slotAt k).accepted }

/-- The oldest packet that waits in a queue has an opcode, the queue has a server, and the packet's content checks pass, so
that its own command takes it (R251, R254). -/
abbrev takes (d : Device) (q op : Nat) (p : Packet) : Prop :=
  (d.queue q).inbox.head? = some p ∧ ((d.queue q).st = .active ∨ (d.queue q).st = .held) ∧ d.serverOf q ≠ .nobody
    ∧ p.op = op ∧ p.content q (d.serverOf q == .deputy) = 0

/-- What follows from the credit of a queue may differ: its limits, the credit that waits for room in the output half, the mailbox
write that is due and the time at zero credit. -/
def Queue.withCredit (x y : Queue) : Queue :=
  { x with
    pktLim := y.pktLim, byteLim := y.byteLim, owed := y.owed, mailDue := y.mailDue
    zeroTime := y.zeroTime, zeroWin := y.zeroWin, zeroSince := y.zeroSince }

/-- PKTLIM and BYTELIM, with the credit that waits for room in the output half, have risen by packets of some padded lengths
(R102, R246). -/
def credited (x y : Queue) (freed : List Nat) : Prop :=
  y.pktLim + w32 y.owed.1 = x.pktLim + w32 x.owed.1 + w32 freed.length
    ∧ y.byteLim + w32 y.owed.2 = x.byteLim + w32 x.owed.2 + w32 freed.sum

/-- A queue has given up its oldest packet, packets stand behind its output, and the credit of some padded lengths has come
back, at once where the output half has room; but for what follows from credit nothing else of it has changed, and no other queue
has (R102, R246, R266). -/
def replied (d e : Device) (q : Nat) (outs : List OutPkt) (freed : List Nat) : Prop :=
  let x := d.queue q
  let y := e.queue q
  y = { x with inbox := x.inbox.drop 1, out := x.out ++ outs }.withCredit y ∧ credited x y freed
    ∧ (freed = [] → y.owed = x.owed ∧ y.pktLim = x.pktLim ∧ y.byteLim = x.byteLim)
    ∧ (freed ≠ [] → e.outFull q = false → y.owed = (0, 0))
    ∧ (d.outFull q = true → y.pktLim = x.pktLim ∧ y.byteLim = x.byteLim)
    ∧ ∀ j, j ≠ q → e.queue j = d.queue j

/-- A CONFIG packet of one item, whose key and value its server accepts (R294, R302, R303). -/
abbrev oneItem (d : Device) (q : Nat) (p : Packet) (key v : Nat) : Prop :=
  takes d q 0x30 p ∧ p.len = 48 ∧ fieldAt p.bytes 32 2 = 1 ∧ zerosAt p.bytes 34 6 = true ∧ p.item 0 = (key, v)
    ∧ keyRange key v = true

/-- A message of a command R347 lists reaches a context of TWI0: the address selects it, no message is being stretched and no write is held (R342,
R350). -/
abbrev reaches (d : Device) (msg : TwiMsg) (c : Nat) : Prop :=
  d.twiContext msg.addr = some c ∧ msg.unknown = false ∧ d.twi.ctxs.any (·.2.stretch.isSome) = false ∧ d.txn.held = []

/-- The queues of TWI1 hold nothing, and no message is in service. -/
abbrev quiet (d : Device) : Prop :=
  d.twi.depq = [] ∧ d.twi.ovmq = [] ∧ d.twi.own = [] ∧ d.twi.polls = [] ∧ d.twi.retry = none

end Sys2Proof.Machine
end

