-- ==== Sys2Proof/Certificates/Slice0/Obligations.lean ====
section
/-! DEFINITION. The statements about the block, for the provers. -/

open Sys2Proof Sys2Proof.Machine

/-! ## The queue of commands and the whole machine -/

/-- A step runs the command at the front of the queue on the block with the queue's rest. (file 00: The part this manual
covers.) -/
def Obligations.StepRunsTheFront : Prop :=
  ∀ (c : Instr) (rest : List Instr) (s : State),
    step { s with pending := c :: rest } = exec c { s with pending := rest }

/-- With no command waiting a step is one AONCLK cycle: both timebases advance, Half B's by one count when nothing is to be
slewed, and nothing else changes; while PORST_N is low no cycle passes. That an empty queue lets a cycle pass is the model's
choice (DESIGN CHOICE, LOG 2). (file 03: The timebase.) -/
def Obligations.IdleStepIsOneCycle : Prop :=
  (∀ s : State, s.pending = [] → s.dev.pins.porstLow = true → step s = .next s)
  ∧ (∀ s : State, s.pending = [] → s.dev.pins.porstLow = false →
    ∃ e : Device, step s = .next { s with dev := e } ∧ e = { s.dev with time := e.time }
      ∧ e.time = { s.dev.time with tbA := e.time.tbA, tbB := e.time.tbB, slew := e.time.slew, pace := e.time.pace }
      ∧ e.time.tbA = s.dev.time.tbA + 1#64
      ∧ (s.dev.time.slew = 0 → e.time.tbB = s.dev.time.tbB + 1#64 ∧ e.time.slew = 0))

/-- No command stops the block: every command in every state answers a next state that differs in the device alone, and from
every state, k steps answer a state in which the oldest k commands are gone and the others wait in their order. Points of it
that the manual leaves open follow the model's own readings: LOG 1, LOG 54. (file 00: The part this manual covers; file 95:
Which steps each requirement bears on.) -/
def Obligations.TheQueueDrainsInOrder : Prop :=
  (∀ (s : State) (c : Instr), ∃ e : Device, exec c s = .next { s with dev := e })
  ∧ (∀ (s : State) (k : Nat), k ≤ s.pending.length → drains s k)

/-- The reset state: nothing waits, PORST_N is low, every domain is OFF, every transaction slot is IDLE, every cell is
stopped, and every register word is its row's reset value. Points of it that the manual leaves open follow the model's own
readings: LOG 4. (file 05: Domains and their states, Reset sources; file 02: The common page header.) -/
def Obligations.ResetState : Prop :=
  State.reset.pending = [] ∧ State.reset.dev.pins.porstLow = true
    ∧ (∀ k, (State.reset.dev.part k).st = .off) ∧ (∀ k, (State.reset.dev.slotAt k).phase = .idle)
    ∧ (∀ n c, ((State.reset.dev.cluster n).cell c).st = .stopped) ∧ ∀ k, State.reset.dev.word k = regReset k

/-- The register map is canonical at reset. (file 02: The common page header.) -/
def Obligations.ResetRegistersCanonical : Prop :=  regsCanonical State.reset

/-- Every step keeps the register map in canonical form: keys rise and no listed word is its reset value, so that two states
whose registers read alike hold the same map. (file 02: The BAR0 page map, The common page header.) -/
def Obligations.EveryStepKeepsRegistersCanonical : Prop :=
  ∀ s t : State, regsCanonical s → step s = .next t → regsCanonical t

/-! ## Registers (file 02) -/

/-- A direct write of PERRMASK that every check lets through stores the implemented bits on every copy the master reaches and
counts once in PSEQ; no other register and no other state changes. A read then returns the stored word. Points of it that the
manual leaves open follow the model's own readings: LOG 44, LOG 45. (file 02: The common page header, Access rules.) -/
def Obligations.DirectWriteStoresAndCounts : Prop :=
  ∀ (s : State) (m : Master) (off : BitVec 24) (p : PageId) (v : W32),
    pageAt off.toNat = some p → off.toNat % 0x1000 = 0x18 → passes s.dev m p 0x18 →
    ∃ e : Device, exec (.registerWrite ⟨m, off, some v, true, false, .registers⟩) s = .next { s with dev := e }
      ∧ e = withRegs s.dev e
      ∧ (∀ h ∈ s.dev.copies (homeOf m) p,
          e.reg h p 0x18 = v &&& w32 (0xFF0000 + classErrMask p) ∧ e.reg h p 0x24 = s.dev.reg h p 0x24 + 1#32)
      ∧ ∀ k, (∀ h ∈ s.dev.copies (homeOf m) p, k ≠ regKey h p 0x18 ∧ k ≠ regKey h p 0x24) → keeps s.dev e k

/-- A master that POWN does not name writes nothing: the write is discarded, PERR.OWN (bit 17) is set on every copy and the
write is reported as kind 0x03. Points of it that the manual leaves open follow the model's own readings: LOG 45. (file 02:
The common page header, Access rules.) -/
def Obligations.WriteWithoutOwnershipIsDiscarded : Prop :=
  ∀ (s : State) (m : Master) (off : BitVec 24) (p : PageId) (v : W32),
    pageAt off.toNat = some p → off.toNat % 0x1000 = 0x18 → arrives s.dev m → s.dev.farPage m p = false →
    s.dev.owns m p = false →
    ∃ e : Device, exec (.registerWrite ⟨m, off, some v, true, false, .registers⟩) s = .next { s with dev := e }
      ∧ e = { withRegs s.dev e with cans := e.cans }
      ∧ (∀ h ∈ s.dev.copies (homeOf m) p, e.reg h p 0x14 = s.dev.reg h p 0x14 ||| 0x00020000#32)
      ∧ (∀ k, (∀ h ∈ s.dev.copies (homeOf m) p, k ≠ regKey h p 0x14) → keeps s.dev e k)
      ∧ reported s.dev e ((s.dev.copies (homeOf m) p).headD .a)
          { unit := 0x6E, kind := 0x03, addr := pageBase p + 0x18, master := masterCode m, access := 1 }

/-- While the halves are apart, a read of a register on a page of the far half returns 0xFFFF_FFFF and a write of it is
discarded, each with one FAR_HALF_ACCESS, a NOTE, on the requester's half; a write to a TX register also ends the master's
open transaction with LINK. A reserved offset of such a page still reads 0, its write is discarded, and each is reported as
RSVD_ACCESS. (R36.) -/
def Obligations.FarHalfAccess : Prop :=
  (kindClass 0x09 = 0)
  ∧ (∀ (s : State) (m : Master) (off : BitVec 24) (p : PageId) (row : RegRow) (i : Nat), s.dev.apart = true →
    p.1.isGlobal = false → pageHalf p.1 p.2 = (homeOf m).other → pageAt off.toNat = some p → off.toNat % 4 = 0 →
    arrives s.dev m → findRow p (off.toNat % 0x1000) = some (row, i) →
    (∃ e : Device, exec (.registerWrite ⟨m, off, none, true, false, .registers⟩) s = .next { s with dev := e }
      ∧ e = { s.dev with cans := e.cans, txn := { s.dev.txn with readData := e.txn.readData } }
      ∧ tget 0#32 e.txn.readData (masterIdx m) = 0xFFFFFFFF#32
      ∧ (∀ j, j ≠ masterIdx m → tget 0#32 e.txn.readData j = tget 0#32 s.dev.txn.readData j)
      ∧ reported s.dev e (homeOf m)
          { unit := 0x6E, kind := 0x09, addr := pageBase p + off.toNat % 0x1000, master := masterCode m, access := 0 })
    ∧ ∀ v, ∃ e : Device, exec (.registerWrite ⟨m, off, some v, true, false, .registers⟩) s = .next { s with dev := e }
      ∧ e = { s.dev with cans := e.cans, txn := { s.dev.txn with slots := e.txn.slots } }
      ∧ (row.tx = false ∨ (s.dev.slotAt (s.dev.slotKey m (slotOf m))).phase ≠ .open →
          e.txn = s.dev.txn ∧ reported s.dev e (homeOf m)
            { unit := 0x6E, kind := 0x09, addr := pageBase p + off.toNat % 0x1000, master := masterCode m, access := 1 })
      ∧ (row.tx = true → (s.dev.slotAt (s.dev.slotKey m (slotOf m))).phase = .open →
          (e.slotAt (s.dev.slotKey m (slotOf m))).phase = .aborted ∧ (e.slotAt (s.dev.slotKey m (slotOf m))).reason = 3#4
            ∧ (∀ j, j ≠ s.dev.slotKey m (slotOf m) → e.slotAt j = s.dev.slotAt j)
            ∧ (Report.message { unit := 0x6E, kind := 0x09, addr := pageBase p + off.toNat % 0x1000
                                master := masterCode m, access := 1 } (homeOf m))
                ∈ (e.canary (homeOf m)).inFlight))
  ∧ (∀ (s : State) (m : Master) (off : BitVec 24) (p : PageId) (w : Option W32), s.dev.apart = true →
    p.1.isGlobal = false → pageHalf p.1 p.2 = (homeOf m).other → pageAt off.toNat = some p → off.toNat % 4 = 0 →
    arrives s.dev m → findRow p (off.toNat % 0x1000) = none →
    ∃ e : Device, exec (.registerWrite ⟨m, off, w, true, false, .registers⟩) s = .next { s with dev := e }
      ∧ e = { s.dev with cans := e.cans, txn := { s.dev.txn with readData := e.txn.readData } }
      ∧ (w = none → tget 0#32 e.txn.readData (masterIdx m) = 0#32) ∧ (w ≠ none → e.txn = s.dev.txn)
      ∧ reported s.dev e (homeOf m)
          { unit := 0x6E, kind := 0x02, addr := off.toNat, master := masterCode m, access := if w.isSome then 1 else 0 })

/-- A read of PERRMASK returns the stored word of the master's copy to it and changes nothing else. A read of TBLO returns the
low half of the timebase of the master's home half and latches the high half for that master alone, which its read of TBHI
then shows. Points of it that the manual leaves open follow the model's own readings: LOG 45. (file 02: The BAR0 page map,
Access rules; file 03: The timebase.) -/
def Obligations.ReadsOfRegisters : Prop :=
  (∀ (s : State) (m : Master) (off : BitVec 24) (p : PageId),
    pageAt off.toNat = some p → off.toNat % 0x1000 = 0x18 → arrives s.dev m → s.dev.farPage m p = false →
    ∃ e : Device, exec (.registerWrite ⟨m, off, none, true, false, .registers⟩) s = .next { s with dev := e }
      ∧ e = { s.dev with txn := { s.dev.txn with readData := e.txn.readData } }
      ∧ tget 0#32 e.txn.readData (masterIdx m) = s.dev.reg (copyOf m p) p 0x18
      ∧ ∀ i, i ≠ masterIdx m → tget 0#32 e.txn.readData i = tget 0#32 s.dev.txn.readData i)
  ∧ (∀ (s : State) (m : Master), arrives s.dev m →
    ∃ e : Device, exec (.tbloRead m) s = .next { s with dev := e }
      ∧ e = { s.dev with time := { s.dev.time with snapshot := e.time.snapshot }
                         txn := { s.dev.txn with readData := e.txn.readData } }
      ∧ tget 0#32 e.txn.readData (masterIdx m) = (s.dev.tb (homeOf m)).setWidth 32
      ∧ e.view m (homeOf m) tmbP 0x44 = (s.dev.tb (homeOf m) >>> 32).setWidth 32
      ∧ ∀ i, i ≠ masterIdx m → tget 0#32 e.txn.readData i = tget 0#32 s.dev.txn.readData i
          ∧ tget 0#32 e.time.snapshot i = tget 0#32 s.dev.time.snapshot i)

/-- A unit reset keeps PCTL.EN and counts once in PSEQ on every copy the master reaches. One whole event of a BAY, THM, LNK or
TMB page returns the body to its reset values where no image is in force, a bay's counters and a thermal unit's sensors with
it, and no register of another page changes. Its start alone sets PCTL.RST and changes nothing else; its end then restores the
body and clears PCTL.RST. A cluster takes it in ENABLED and DISABLED alone; an offset of no page is a reserved one. Points of
it that the manual leaves open follow the model's own readings: LOG 28. (file 02: The common page header.) -/
def Obligations.UnitResets : Prop :=
  (∀ (s : State) (m : Master) (off : BitVec 24) (p : PageId), s.dev.txn.held = [] →
    pageAt off.toNat = some p → passes s.dev m p 0x10 →
    (p.1 = .clu → s.dev.pageState (copyOf m p) p = 3 ∨ s.dev.pageState (copyOf m p) p = 5) →
    s.dev.pageState (copyOf m p) p ≠ 6 → s.dev.pageState (copyOf m p) p ≠ 7 →
    ∃ e : Device, exec (.unitReset m off .whole) s = .next { s with dev := e }
      ∧ (∀ h ∈ s.dev.copies (homeOf m) p,
          bit (e.reg h p 0x10) 0 = bit (s.dev.reg (copyOf m p) p 0x10) 0 ∧ e.reg h p 0x24 = s.dev.reg h p 0x24 + 1#32)
      ∧ (p.1 = .bay ∨ p.1 = .thm ∨ p.1 = .lnk ∨ p.1 = .tmb → (∀ h, s.dev.imageOf h = []) →
          (∀ h ∈ s.dev.copies (homeOf m) p, ∀ o, 0x40 ≤ o → o < 0x1000 → keptWord (regKey h p o) = false →
            e.reg h p o = regReset (regKey h p o))
          ∧ (∀ k, (∀ h ∈ s.dev.copies (homeOf m) p, k < regKey h p 0 ∨ regKey h p 0x1000 ≤ k) → keeps s.dev e k)
          ∧ e = { withRegs s.dev e with compute := e.compute, therms := e.therms, link := e.link }
          ∧ (∀ k, e.bay k = if p = bayP k then Bay.clear (s.dev.bay k) else s.dev.bay k)
          ∧ ∀ h, e.therm h = if p = thmP h
              then { scans := (s.dev.therm h).scans, inhibit := (s.dev.therm h).inhibit, inhibitRun := (s.dev.therm h).inhibitRun }
              else s.dev.therm h))
  ∧ (∀ (s : State) (m : Master) (off : BitVec 24) (p : PageId), s.dev.txn.held = [] →
    pageAt off.toNat = some p → (p.1 = .bay ∨ p.1 = .thm ∨ p.1 = .tmb) → bit (s.dev.reg (copyOf m p) p 0x10) 1 = true →
    (∀ h, s.dev.imageOf h = []) →
    ∃ e : Device, exec (.unitReset m off .finish) s = .next { s with dev := e }
      ∧ (∀ h ∈ s.dev.copies (homeOf m) p, bit (e.reg h p 0x10) 1 = false
          ∧ bit (e.reg h p 0x10) 0 = bit (s.dev.reg h p 0x10) 0
          ∧ ∀ o, 0x40 ≤ o → o < 0x1000 → keptWord (regKey h p o) = false → e.reg h p o = regReset (regKey h p o)))
  ∧ (∀ (s : State) (m : Master) (off : BitVec 24) (phase : ResetPhase), s.dev.txn.held = [] → s.dev.reaches m = true →
    pageAt off.toNat = none →
    ∃ e : Device, exec (.unitReset m off phase) s = .next { s with dev := e } ∧ e = { s.dev with cans := e.cans }
      ∧ reported s.dev e (homeOf m) { unit := 0x6E, kind := 0x02, addr := off.toNat, master := masterCode m, access := 1 })
  ∧ (∀ (s : State) (m : Master) (off : BitVec 24) (p : PageId), s.dev.txn.held = [] →
    pageAt off.toNat = some p → passes s.dev m p 0x10 →
    (p.1 = .clu → s.dev.pageState (copyOf m p) p = 3 ∨ s.dev.pageState (copyOf m p) p = 5) →
    s.dev.pageState (copyOf m p) p ≠ 6 → s.dev.pageState (copyOf m p) p ≠ 7 →
    ∃ e : Device, exec (.unitReset m off .start) s = .next { s with dev := e }
      ∧ e = withRegs s.dev e
      ∧ (∀ h ∈ s.dev.copies (homeOf m) p,
          bit (e.reg h p 0x10) 1 = true ∧ bit (e.reg h p 0x10) 0 = bit (s.dev.reg (copyOf m p) p 0x10) 0
            ∧ e.reg h p 0x24 = s.dev.reg h p 0x24 + 1#32)
      ∧ ∀ k, (∀ h ∈ s.dev.copies (homeOf m) p, k ≠ regKey h p 0x10 ∧ k ≠ regKey h p 0x24) → keeps s.dev e k)

/-! ## Transactions (file 02) -/

/-- BEGIN on a slot that is not in use opens it: its tag is taken, nothing is staged or claimed, and TIMEOUTn in units of 100
µs counts from now. COMMIT and ABORT with the slot's tag close it: COMMIT waits for the check boundary, ABORT ends the slot
ABORTED with reason 6 and its claims released. Each counts in PSEQ of TXN. Points of it that the manual leaves open follow the
model's own readings: LOG 13, LOG 45. (file 02: The TXN page, States.) -/
def Obligations.TransactionCommands : Prop :=
  (∀ (s : State) (m : Master) (slot : Fin 5) (tag : W16),
    slot.val = slotOf m → passes s.dev m txnP (0x40 + 0x20 * slot.val) →
    (s.dev.slotAt (s.dev.slotKey m slot)).busy = false →
    ∃ e : Device, exec (.txnBegin m slot tag) s = .next { s with dev := e }
      ∧ e = { withRegs s.dev e with txn := { s.dev.txn with slots := e.txn.slots } } ∧ countsOnce s.dev e m txnP
      ∧ e.slotAt (s.dev.slotKey m slot) =
          { phase := .open, tag, home := homeOf m, opened := s.dev.tb (homeOf m)
            limit := low16 (s.dev.reg (homeOf m) txnP (0x4C + 0x20 * slot.val)) * 10000
            ctime := (s.dev.slotAt (s.dev.slotKey m slot)).ctime }
      ∧ ∀ j, j ≠ s.dev.slotKey m slot → e.slotAt j = s.dev.slotAt j)
  ∧ (∀ (s : State) (m : Master) (slot : Fin 5) (tag : W16),
    slot.val = slotOf m → passes s.dev m txnP (0x40 + 0x20 * slot.val) →
    (s.dev.slotAt (s.dev.slotKey m slot)).phase = .open → (s.dev.slotAt (s.dev.slotKey m slot)).tag = tag →
    (∃ e : Device, exec (.txnCommit m slot tag) s = .next { s with dev := e }
      ∧ e = { withRegs s.dev e with txn := { s.dev.txn with slots := e.txn.slots } } ∧ countsOnce s.dev e m txnP
      ∧ e.slotAt (s.dev.slotKey m slot) =
          { s.dev.slotAt (s.dev.slotKey m slot) with phase := .committing, accepted := s.dev.tb (homeOf m) }
      ∧ ∀ j, j ≠ s.dev.slotKey m slot → e.slotAt j = s.dev.slotAt j)
    ∧ (∃ e : Device, exec (.txnAbort m slot tag) s = .next { s with dev := e }
      ∧ e = { withRegs s.dev e with txn := { s.dev.txn with slots := e.txn.slots } } ∧ countsOnce s.dev e m txnP
      ∧ (e.slotAt (s.dev.slotKey m slot)).phase = .aborted ∧ (e.slotAt (s.dev.slotKey m slot)).reason = 6#4
      ∧ (e.slotAt (s.dev.slotKey m slot)).claims = []
      ∧ ∀ j, j ≠ s.dev.slotKey m slot → e.slotAt j = s.dev.slotAt j))

/-- A transaction that has stayed open for TIMEOUTn ends ABORTED with reason 5 at that instant, its claims released, with one
report of kind 0x0F. At the check boundary a committed transaction that has staged nothing is DONE at once; one whose checks
pass waits for its application boundary; one whose check fails, on one half or with LINK, ends ABORTED with the check's
reason, the offset that failed in FAILn, its claims released and one report. GO: a spanning transaction whose checks passed,
whose far half answered in time over a working crosscut, goes on to its application boundary; without the answer it ends
ABORTED with LINK (reason 3), its claims released. Points of it that the manual leaves open follow the model's own readings:
LOG 2, LOG 43. (file 02: States, Commit timing.) -/
def Obligations.TransactionChecks : Prop :=
  (∀ (s : State) (slot : Fin 10), (s.dev.slotAt slot).phase = .open → s.dev.pins.porstLow = false →
    ((s.dev.slotAt slot).home = .b → s.dev.time.slew = 0) →
    ∃ e : Device, exec (.txnTimeout slot) s = .next { s with dev := e }
      ∧ e = { s.dev with time := e.time, txn := { s.dev.txn with slots := e.txn.slots }, cans := e.cans }
      ∧ e.slotAt slot = { s.dev.slotAt slot with
          phase := .aborted, reason := 5#4, ctime := e.tb (s.dev.slotAt slot).home, claims := [] }
      ∧ (∀ j, j ≠ slot.val → e.slotAt j = s.dev.slotAt j)
      ∧ e.tb (s.dev.slotAt slot).home =
          (let limit := (s.dev.slotAt slot).opened + BitVec.ofNat 64 (s.dev.slotAt slot).limit
           if (s.dev.tb (s.dev.slotAt slot).home).toNat < limit.toNat then limit else s.dev.tb (s.dev.slotAt slot).home)
      ∧ reported s.dev e (s.dev.slotAt slot).home
          { unit := 0x6E, kind := 0x0F, addr := pageBase txnP + 0x40 + 0x20 * (slot.val % 5)
            master := slotMaster slot, access := 1 })
  ∧ (∀ (s : State) (slot : Fin 10), (s.dev.slotAt slot).phase = .committing → s.dev.txn.held = [] → s.dev.cross.bad = [] →
    s.dev.checkStored (s.dev.slotAt slot).home depP = s.dev →
    ∃ e : Device, exec (.checkBoundary slot) s = .next { s with dev := e }
      ∧ e = { s.dev with time := e.time, txn := { s.dev.txn with slots := e.txn.slots }, cans := e.cans }
      ∧ (∀ j, j ≠ slot.val → e.slotAt j = s.dev.slotAt j)
      ∧ ((s.dev.slotAt slot).staged = [] →
          (e.slotAt slot).phase = .done ∧ (e.slotAt slot).reason = 0#4 ∧ (e.slotAt slot).claims = [] ∧ e.cans = s.dev.cans)
      ∧ ((s.dev.slotAt slot).staged ≠ [] → (s.dev.atCheck slot).txnCheck slot = none →
          (e.slotAt slot).phase = .checked ∧ (e.slotAt slot).staged = (s.dev.slotAt slot).staged
            ∧ (e.slotAt slot).claims = (s.dev.slotAt slot).claims ∧ e.cans = s.dev.cans)
      ∧ (∀ reason kind off, (s.dev.slotAt slot).staged ≠ [] →
          (s.dev.atCheck slot).txnCheck slot = some (reason, kind, off) →
          ((s.dev.slotAt slot).spans = false ∨ reason = 3#4) →
          (e.slotAt slot).phase = .aborted ∧ (e.slotAt slot).reason = reason ∧ (e.slotAt slot).fail = w32 off
            ∧ (e.slotAt slot).claims = []
            ∧ reported s.dev e (s.dev.slotAt slot).home
                { unit := 0x6E, kind, addr := off, master := slotMaster slot, access := 1 }))
  ∧ (∀ (s : State) (slot : Fin 10) (inTime : Bool),
    (s.dev.slotAt slot).phase = .checked → (s.dev.slotAt slot).spans = true → s.dev.txn.held = [] →
    (s.dev.slotAt slot).found = 0#4 →
    ∃ e : Device, exec (.go slot inTime) s = .next { s with dev := e }
      ∧ e = { s.dev with time := e.time, txn := { s.dev.txn with slots := e.txn.slots }, cans := e.cans }
      ∧ (∀ j, j ≠ slot.val → e.slotAt j = s.dev.slotAt j)
      ∧ ((inTime = true ∧ s.dev.crosscutUp = true) →
          e.slotAt slot = { s.dev.slotAt slot with phase := .gone } ∧ e.cans = s.dev.cans)
      ∧ ((inTime = false ∨ s.dev.crosscutUp = false) →
          (e.slotAt slot).phase = .aborted ∧ (e.slotAt slot).reason = 3#4 ∧ (e.slotAt slot).claims = []
            ∧ reported s.dev e (s.dev.slotAt slot).home
                { unit := 0x6E, kind := 0x0E, addr := (s.dev.slotAt slot).offsets.headD 0, master := slotMaster slot
                  access := 1 }))

/-- At the application boundary a transaction of one half that carries no domain or device command is DONE with its claims
released. Where it stages THM registers alone, every staged word is live and in use, but that of a register whose word crossed
with a bad complement: its unit keeps the last it used. PSEQ of each claimed page counts once, and no other register has
changed. Points of it that the manual leaves open follow the model's own readings: LOG 2, LOG 43. (file 02: States, Commit
timing.) -/
def Obligations.ApplicationBoundaryMakesWordsLive : Prop :=
  ∀ (s : State) (slot : Fin 10) (goArrived : Bool) (t : TxnSlot), t = s.dev.slotAt slot →
    t.phase = .checked → t.spans = false → s.dev.txn.held = [] →
    (∀ k ∈ s.dev.cross.bad, k ∈ t.offsets ∧ (stagedAt k).1 ≠ txnP) →
    (s.dev.advanceTo t.home (t.boundary + 128#64)).domainFails t = [] →
    (∀ off ∈ t.offsets, off ≠ 0x6084 ∧ ∀ i < 8, off ≠ 0x6040 + 4 * i) →
    ∃ e : Device, exec (.applicationBoundary slot goArrived) s = .next { s with dev := e }
      ∧ (e.slotAt slot).phase = .done ∧ (e.slotAt slot).reason = 0#4 ∧ (e.slotAt slot).claims = []
      ∧ ((∀ x ∈ t.staged, (stagedAt x.1).1.1 = .thm ∧ 0x40 ≤ x.1 % 0x1000) →
          (∀ c ∈ t.claims, c.1 < 2 ^ 24 ∧ ∃ i < 2, c.1 = pageBase (.thm, i)) → t.offsets.Nodup → (t.claims.map (·.1)).Nodup →
          e = { withRegs s.dev e with time := e.time, txn := { s.dev.txn with slots := e.txn.slots }, cross := e.cross }
            ∧ (∀ x ∈ t.staged, e.word x.1 = x.2 ∧ e.used x.1 = if x.1 ∈ s.dev.cross.bad then s.dev.used x.1 else x.2)
            ∧ (∀ c ∈ t.claims, e.word (c.1 + 0x24) = s.dev.word (c.1 + 0x24) + 1#32)
            ∧ wordsKept s.dev e (t.offsets ++ t.claims.map fun c => c.1 + 0x24))

/-! ## Clocks and timebase (file 03) -/

/-- The count of MGMT_CLK after PORST_N chooses the AON clock source; its loss later goes over to the oscillator with a report
of kind 0x14; a locked domain PLL that loses lock clears its LOCK bit with a report of kind 0x15 that carries its number. A
critical value that crosses with a bad complement is discarded: no word and no value in use changes, the register at the
address is marked for the word that follows, and the receiving unit sends one report of kind 0x11. Points of it that the
manual leaves open follow the model's own readings: LOG 16. (file 03: Clock domains, Crossings between domains.) -/
def Obligations.ClockEvents : Prop :=
  ((∀ (s : State) (h : Half) (edges : Nat), s.dev.pins.porstLow = false → tget false s.dev.time.counted h.idx = false →
    ∃ e : Device, exec (.mgmtClkCount h edges) s = .next { s with dev := e }
      ∧ e = { withRegs s.dev e with time := { s.dev.time with counted := e.time.counted } }
      ∧ tget false e.time.counted h.idx = true
      ∧ (e.onOscillator h = true ↔ ¬ (400 ≤ edges ∧ edges ≤ 600)) ∧ e.onOscillator h.other = s.dev.onOscillator h.other
      ∧ wordsKept s.dev e [regKey .a clkP 0x44, regKey .b clkP 0x44])
  ∧ (∀ (s : State) (h : Half), s.dev.pins.porstLow = false → s.dev.onOscillator h = false →
    tget false s.dev.time.counted h.idx = true →
    ∃ e : Device, exec (.mgmtClkLost h) s = .next { s with dev := e }
      ∧ e = { withRegs s.dev e with cans := e.cans }
      ∧ e.onOscillator h = true ∧ e.onOscillator h.other = s.dev.onOscillator h.other
      ∧ wordsKept s.dev e [regKey .a clkP 0x44, regKey .b clkP 0x44]
      ∧ reported s.dev e h { unit := 0x68, kind := 0x14, addr := pageBase clkP + 0x44 })
  ∧ (∀ (s : State) (h : Half) (pll : Fin 9), pll ≠ 0 →
    bit (s.dev.reg .a clkP 0x40) (16 * h.idx + pll) = true →
    ∃ e : Device, exec (.pllUnlock h pll) s = .next { s with dev := e }
      ∧ e = { withRegs s.dev e with cans := e.cans }
      ∧ (∀ i < 32, bit (e.reg .a clkP 0x40) i = (bit (s.dev.reg .a clkP 0x40) i && i != 16 * h.idx + pll))
      ∧ wordsKept s.dev e [regKey .a clkP 0x40, regKey .b clkP 0x40]
      ∧ reported s.dev e h { unit := 0x68, kind := 0x15, addr := pageBase clkP + 0x40, detail := pll }))
  ∧ (∀ (s : State) (h : Half) (unit : BitVec 10) (addr : W32), s.dev.pins.porstLow = false →
    ∃ e : Device, exec (.xingCmpl h unit addr) s = .next { s with dev := e }
      ∧ e = { s.dev with cans := e.cans, cross := { s.dev.cross with bad := e.cross.bad } }
      ∧ (∀ p, pageAt addr.toNat = some p → regKey h p (addr.toNat % 0x1000) ∈ e.cross.bad)
      ∧ (pageAt addr.toNat = none → e.cross = s.dev.cross)
      ∧ reported s.dev e h { unit := unit.toNat, kind := 0x11, addr := addr.toNat })

/-- An alignment exchange sends a TB_ALIGN frame over a live bell line and fails over a silent one; the frame's arrival sets
TBSTAT from the measured offset, ALIGNED within 20 ns, and slews Half B's timebase by the offset in counts of 10 ns; three
intervals without one on an oscillator clear ALIGNED with a report of kind 0x16. Points of it that the manual leaves open
follow the model's own readings: LOG 2, LOG 33. (file 03: The timebase.) -/
def Obligations.TimebaseAlignment : Prop :=
  (∀ s : State, s.dev.pins.porstLow = false →
    ∃ e : Device, exec .alignmentExchange s = .next { s with dev := e } ∧ e.time.lastExch = e.time.tbA
      ∧ (s.dev.bellUp = true → e = { s.dev with time := e.time, link := { s.dev.link with bell := { s.dev.link.bell with align := true } } })
      ∧ (s.dev.bellUp = false → e = { withRegs s.dev e with time := e.time }
          ∧ e.aligned = s.dev.aligned ∧ bit e.tbStat 30 = true ∧ e.tbOffset = s.dev.tbOffset
          ∧ wordsKept s.dev e [regKey .a tmbP 0x48, regKey .b tmbP 0x48]))
  ∧ (∀ (s : State) (offset o : Int), s.dev.link.bell.align = true → o = s.dev.measured offset →
    ∃ e : Device, exec (.tbAlign offset) s = .next { s with dev := e }
      ∧ e = { withRegs s.dev e with time := e.time, cans := e.cans
                                    link := { s.dev.link with ends := e.link.ends, bell := { s.dev.link.bell with align := false } } }
      ∧ (s.dev.onOscillator .a = false → s.dev.onOscillator .b = false →
          e.time = { s.dev.time with slew := -offsetCounts o, lastAlign := s.dev.time.tbA })
      ∧ e.aligned = decide (-20 ≤ o ∧ o ≤ 20) ∧ e.tbOffset = o ∧ bit e.tbStat 30 = false ∧ e.time.slew = -offsetCounts o
      ∧ wordsKept s.dev e [regKey .a tmbP 0x48, regKey .b tmbP 0x48]
      ∧ (s.dev.aligned = true → ¬ (-20 ≤ o ∧ o ≤ 20) →
          reported s.dev e .b { unit := 0x68, kind := 0x16, addr := pageBase tmbP + 0x48 }))
  ∧ (∀ (s : State) (h : Half), s.dev.pins.porstLow = false → s.dev.aligned = true →
    (s.dev.onOscillator .a = true ∨ s.dev.onOscillator .b = true) →
    ∃ e : Device, exec (.tbUnaligned h) s = .next { s with dev := e }
      ∧ e = { withRegs s.dev e with time := e.time, cans := e.cans }
      ∧ e.aligned = false ∧ e.tbOffset = s.dev.tbOffset
      ∧ wordsKept s.dev e [regKey .a tmbP 0x48, regKey .b tmbP 0x48]
      ∧ reported s.dev e h { unit := 0x68, kind := 0x16, addr := pageBase tmbP + 0x48 })

/-! ## Crosscut and bell line (file 16) -/

/-- A flit's failed CRC at an end that is UP counts a replay and is reported as kind 0x71; a lane's failure moves it to its
bundle's spare, counts a repair and is reported as kind 0x70. Retraining: LINKCMD of a half that is apart, with no spanning
work and its PD7 ON, starts its end's training; training that succeeds brings ends that were joined UP; training that fails
leaves the end FAILED with reason and result 3 and 4 where a bundle needs a second spare, 4 and 5 where 10 ms have passed.
Points of it that the manual leaves open follow the model's own readings: LOG 42, LOG 46. (file 16: The crosscut, Rejoining,
The LNK pages.) -/
def Obligations.CrosscutRepairAndTraining : Prop :=
  ((∀ (s : State) (h : Half) (failed : Bool), s.dev.txn.held = [] → (s.dev.linkEnd h).st = .up → s.dev.armedFor h 0x69 0 = none →
    (failed = true → (s.dev.linkEnd h).failedReplays < 7) →
    ∃ e : Device, exec (.linkCrcRetry h failed) s = .next { s with dev := e }
      ∧ e = { withRegs s.dev e with cans := e.cans, link := { s.dev.link with ends := e.link.ends } }
      ∧ e.linkEnd h = { s.dev.linkEnd h with
          replays := satInc (s.dev.linkEnd h).replays
          failedReplays := if failed then (s.dev.linkEnd h).failedReplays + 1 else 0 }
      ∧ e.linkEnd h.other = s.dev.linkEnd h.other
      ∧ e.reg .a (lnkP h) 0x14 = s.dev.reg .a (lnkP h) 0x14 ||| 2#32 ∧ wordsKept s.dev e [regKey .a (lnkP h) 0x14]
      ∧ reported s.dev e h { unit := 0x69, kind := 0x71, addr := pageBase (lnkP h) + 0x48, access := 5 })
  ∧ (∀ (s : State) (h : Half) (b : Fin 64) (lane : BitVec 6), s.dev.txn.held = [] →
    ((s.dev.linkEnd h).st = .up ∨ (s.dev.linkEnd h).st = .training) → lane.toNat < 40 →
    (tget {} (s.dev.linkEnd h).bundles b : Bundle).used = false →
    ∃ e : Device, exec (.linkLaneRepair h b lane) s = .next { s with dev := e }
      ∧ e = { withRegs s.dev e with cans := e.cans, link := { s.dev.link with ends := e.link.ends } }
      ∧ (tget {} (e.linkEnd h).bundles b : Bundle) = { (tget {} (s.dev.linkEnd h).bundles b : Bundle) with used := true, lane }
      ∧ (∀ j, j ≠ b.val → (tget {} (e.linkEnd h).bundles j : Bundle) = tget {} (s.dev.linkEnd h).bundles j)
      ∧ e.linkEnd h = { s.dev.linkEnd h with
          bundles := (e.linkEnd h).bundles, repairs := (s.dev.linkEnd h).repairs + 1#16, lowSeen := (e.linkEnd h).lowSeen }
      ∧ e.linkEnd h.other = s.dev.linkEnd h.other ∧ wordsKept s.dev e [regKey .a (lnkP h) 0x14]
      ∧ ∃ rest, (e.canary h).inFlight = (s.dev.canary h).inFlight
          ++ ({ unit := 0x69, kind := 0x70, addr := pageBase (lnkP h) + 0x60 + 4 * b.val, detail := lane.toNat
                access := 5 } : Report).message h :: rest))
  ∧ ((∀ (s : State) (m : Master), passes s.dev m devP 0x80 → (s.dev.linkEnd (homeOf m)).mode ≠ .joined →
    s.dev.spanningWork = false → s.dev.isOn (linkPart (homeOf m)) = true → s.dev.bellUp = true →
    s.dev.storeOverBell = false → (s.dev.linkEnd (homeOf m)).st ≠ .training →
    ∃ e : Device, exec (.retrainRequest m (cpWord 1)) s = .next { s with dev := e }
      ∧ e = { withRegs s.dev e with link := { s.dev.link with
                           ends := e.link.ends, bell := { s.dev.link.bell with retrain := some (homeOf m) } } }
      ∧ e.linkEnd (homeOf m) = { s.dev.linkEnd (homeOf m) with
          asked := true, st := .training, trainedAt := s.dev.tb (homeOf m) })
  ∧ (∀ s : State, (∀ h, (s.dev.linkEnd h).st = .training ∧ (s.dev.linkEnd h).mode = .joined) →
    s.dev.isOn 6 = true → s.dev.isOn 8 = true →
    ∃ e : Device, exec .trainingDone s = .next { s with dev := e }
      ∧ e = { s.dev with link := { s.dev.link with ends := e.link.ends, bell := { s.dev.link.bell with retrain := none } } }
      ∧ ∀ h, e.linkEnd h = { s.dev.linkEnd h with st := .up, failedReplays := 0 })
  ∧ (∀ (s : State) (h : Half) (unrepairable : Bool), s.dev.txn.held = [] → (s.dev.linkEnd h).st = .training → (s.dev.linkEnd h).mode ≠ .joined →
    ∃ e : Device, exec (.trainingTimeout h unrepairable) s = .next { s with dev := e }
      ∧ e = { withRegs s.dev e with time := e.time, cans := e.cans
                                    link := { s.dev.link with ends := e.link.ends, bell := { s.dev.link.bell with retrain := none } } }
      ∧ e.linkEnd h = { s.dev.linkEnd h with
          st := .failed, asked := false, reason := if unrepairable then 3#8 else 4#8
          result := if unrepairable then 4#8 else 5#8 }
      ∧ e.linkEnd h.other = s.dev.linkEnd h.other ∧ wordsKept s.dev e [regKey .a (lnkP h) 0x14]
      ∧ reported s.dev e h { unit := 0x69, kind := 0x72, addr := pageBase (lnkP h) + 0x40, access := 5 }))

/-- Entry into SPLIT: an end that has had no valid flit, Half A on Half B's SPLIT_REQ, and Half B on SPLIT_GO leave JOINED for
SPLIT over a live bell line and AUTONOMOUS over a silent one; the end is FAILED with the reason and SPLITS counts. Points of
it that the manual leaves open follow the model's own readings: LOG 13, LOG 47. (file 16: Entering SPLIT, Split with the bell
line silent.) -/
def Obligations.EntryIntoSplit : Prop :=
  (∀ (s : State) (h : Half), s.dev.txn.held = [] → (s.dev.linkEnd h).st = .up → (s.dev.linkEnd h).mode = .joined →
    ∃ e : Device, exec (.linkTallyTimeout h) s = .next { s with dev := e }
      ∧ (e.linkEnd h).st = .failed ∧ (e.linkEnd h).reason = 1#8
      ∧ (e.linkEnd h).mode = (if s.dev.bellUp then .split else .autonomous)
      ∧ (e.linkEnd h).splits = (s.dev.linkEnd h).splits + 1#16 ∧ e.linkEnd h.other = s.dev.linkEnd h.other)
  ∧ (∀ (s : State) (reason : Byte), s.dev.txn.held = [] → s.dev.link.bell.splitReq = some .b → (s.dev.linkEnd .a).mode = .joined →
    s.dev.bellUp = true →
    ∃ e : Device, exec (.splitReq .b reason) s = .next { s with dev := e }
      ∧ (e.linkEnd .a).st = .failed ∧ (e.linkEnd .a).mode = .split ∧ (e.linkEnd .a).reason = reason
      ∧ e.link.bell.splitReq = none ∧ e.link.bell.splitGo = true)
  ∧ (∀ s : State, s.dev.txn.held = [] → s.dev.link.bell.splitGo = true → (s.dev.linkEnd .b).mode = .joined → s.dev.bellUp = true →
    ∃ e : Device, exec .splitGo s = .next { s with dev := e }
      ∧ (e.linkEnd .b).st = .failed ∧ (e.linkEnd .b).mode = .split ∧ (e.linkEnd .b).reason = (s.dev.linkEnd .a).reason
      ∧ e.link.bell.splitGo = false ∧ e.link.bell.splitAck = true)
  ∧ (∀ s : State, s.dev.link.bell.splitAck = true → s.dev.bellUp = true → s.dev.apart = true → s.dev.pins.porstLow = false →
    ∃ e : Device, exec .splitAck s = .next { s with dev := e }
      ∧ e = { s.dev with link := { s.dev.link with ends := e.link.ends, bell := { s.dev.link.bell with splitAck := false } } }
      ∧ e.linkEnd .a = { s.dev.linkEnd .a with agreed := true, lastFrame := s.dev.tb .a }
      ∧ e.linkEnd .b = { s.dev.linkEnd .b with agreed := true })

/-- Frames of the bell line: a valid frame on a silent line counts, and the third makes the line alive again; over a live line
POWER_BIN gives a half in SPLIT the other half's bin, NVM carries a STORE that runs over the bell line, and RETRAIN starts the
receiving end's training; 5 ms without a frame make the line silent with a report of kind 0x74. Points of it that the manual
leaves open follow the model's own readings: LOG 33. (file 16: The bell line, Split with the bell line silent; file 13: The
settings store.) -/
def Obligations.BellLineFrames : Prop :=
  (∀ (s : State) (h : Half), (s.dev.linkEnd h).bell = false → s.dev.pins.porstLow = false →
    ∃ e : Device, exec (.heartbeat h) s = .next { s with dev := e }
      ∧ e = { s.dev with link := { s.dev.link with ends := e.link.ends } }
      ∧ ((s.dev.linkEnd h).frames < 2 → e.linkEnd h = { s.dev.linkEnd h with frames := (s.dev.linkEnd h).frames + 1, lastFrame := s.dev.tb h })
      ∧ ((s.dev.linkEnd h).frames = 2 → (e.linkEnd h).bell = true ∧ (e.linkEnd h).frames = 0
          ∧ (e.linkEnd h).lastFrame = s.dev.tb h
          ∧ ((s.dev.linkEnd h).mode = .autonomous → (e.linkEnd h).mode = .split)))
  ∧ (∀ (s : State) (h : Half) (bin : Nat), s.dev.pins.porstLow = false → (s.dev.linkEnd h).bell = true → s.dev.apart = true →
    bin < 2 ^ 32 →
    ∃ e : Device, exec (.powerBin h bin) s = .next { s with dev := e }
      ∧ e = { s.dev with govs := e.govs, link := { s.dev.link with ends := e.link.ends } }
      ∧ e.linkEnd h = { s.dev.linkEnd h with lastFrame := s.dev.tb h } ∧ e.linkEnd h.other = s.dev.linkEnd h.other
      ∧ e.gov h = { s.dev.gov h with otherBin := some bin } ∧ e.gov h.other = s.dev.gov h.other)
  ∧ (∀ (s : State) (h : Half) (payload : List Byte), s.dev.pins.porstLow = false → s.dev.bellUp = true →
    s.dev.storeOverBell = true → 1 ≤ payload.length → payload.length ≤ 255 →
    ∃ e : Device, exec (.nvmFrame h payload) s = .next { s with dev := e }
      ∧ e = { s.dev with link := { s.dev.link with ends := e.link.ends, bell := { s.dev.link.bell with storeData := true } } }
      ∧ e.linkEnd h = { s.dev.linkEnd h with lastFrame := s.dev.tb h } ∧ e.linkEnd h.other = s.dev.linkEnd h.other)
  ∧ (∀ (s : State) (h : Half) (payload : Byte), s.dev.pins.porstLow = false → (s.dev.linkEnd h).bell = true →
    s.dev.link.bell.retrain = some h.other →
    s.dev.isOn (linkPart h) = true →
    ∃ e : Device, exec (.retrainFrame h payload) s = .next { s with dev := e }
      ∧ e = { s.dev with link := { s.dev.link with ends := e.link.ends, bell := { s.dev.link.bell with retrain := none } } }
      ∧ e.linkEnd h = { s.dev.linkEnd h with st := .training, trainedAt := s.dev.tb h, lastFrame := s.dev.tb h }
      ∧ e.linkEnd h.other = s.dev.linkEnd h.other)
  ∧ (∀ (s : State) (h : Half), (s.dev.linkEnd h).bell = true → s.dev.pins.porstLow = false →
    ∃ e : Device, exec (.bellSilent h) s = .next { s with dev := e }
      ∧ e = { withRegs s.dev e with time := e.time, cans := e.cans, link := { s.dev.link with ends := e.link.ends } }
      ∧ e.linkEnd h = { s.dev.linkEnd h with
          bell := false, frames := 0, agreed := false
          mode := if (s.dev.linkEnd h).mode = .split then .autonomous else (s.dev.linkEnd h).mode }
      ∧ e.linkEnd h.other = s.dev.linkEnd h.other ∧ wordsKept s.dev e [regKey .a (lnkP h) 0x14]
      ∧ reported s.dev e h { unit := 0x6A, kind := 0x74, addr := pageBase (lnkP h) + 0x40, access := 5 })

/-! ## Supplies and resets (files 04 and 05) -/

/-- PORST_N low, and VAUX out of range, leave the cold reset state: every register at its reset value, every unit as at reset;
only the levels of PERSTh_N, the fuses and the stores' banks, which have no reset, stay (and the model's own free counter).
PORST_N rises: the straps are sampled, both timebases start from 0, both Deputies run, and RSTCAUSE shows the cold reset in
bit 0 of both copies. Points of it that the manual leaves open follow the model's own readings: LOG 4, LOG 30. (file 05: Reset
sources, From PORST_N to a serving Overman.) -/
def Obligations.ColdResetAndBoot : Prop :=
  (∀ s : State,
    (∃ e : Device, exec .porstN s = .next { s with dev := e } ∧ exec .vauxOutOfRange s = .next { s with dev := e }
      ∧ e = { State.reset.dev with
          time := { State.reset.dev.time with freeCount := s.dev.time.freeCount }
          pins := { State.reset.dev.pins with persthLow := s.dev.pins.persthLow }
          deputy := { State.reset.dev.deputy with fuseCount := s.dev.deputy.fuseCount }
          nvm := { State.reset.dev.nvm with banks := s.dev.nvm.banks, calBad := s.dev.nvm.calBad, count := s.dev.nvm.count } }))
  ∧ (∀ (s : State) (st : Straps) (bell : Bool), s.dev.pins.porstLow = true →
    ∃ e : Device, exec (.porstNDeassertion st bell) s = .next { s with dev := e }
      ∧ e.pins = { s.dev.pins with porstLow := false, addrSel := st.addrSel, twiVsel := st.twiVsel }
      ∧ e.time.tbA = 0#64 ∧ e.time.tbB = 0#64
      ∧ (∀ h : Half, tget false e.deputy.running h.idx = true ∧ bit (e.reg h pdmP 0x90) 0 = true))

/-- A warm reset, from WARM_N, from software or from a Deputy's watchdog, sets its bit of RSTCAUSE (1, 2, 3) in both copies,
keeps the pins and the timebases, and leaves no transaction, request, session or lode. With no access held, a half reset sets
its bit of RSTCAUSE (5 for Half A, 6 for Half B) in both copies, leaves the pins and the timebases, takes the half's clusters
and bays to their reset state but for what the retirement record marks, and leaves no request or session of the half's queues.
Points of it that the manual leaves open follow the model's own readings: LOG 17, LOG 18, LOG 31. (file 05: Reset sources,
Interrupted operations.) -/
def Obligations.WarmAndHalfResets : Prop :=
  ((∀ s : State, s.dev.pins.porstLow = false →
    ∃ e : Device, exec .warmN s = .next { s with dev := e } ∧ warmed s.dev e 1)
  ∧ (∀ s : State, s.dev.awake = true →
    ∃ e : Device, exec .softwareDeviceReset s = .next { s with dev := e } ∧ warmed s.dev e 2)
  ∧ (∀ (s : State) (h : Half), s.dev.pins.porstLow = false →
    ∃ e : Device, exec (.deputyWatchdog h) s = .next { s with dev := e } ∧ warmed s.dev e 3))
  ∧ ((∀ s : State, s.dev.awake = true → s.dev.txn.held = [] →
    ∃ e : Device, exec .halfResetA s = .next { s with dev := e } ∧ halved s.dev e .a)
  ∧ (∀ s : State, s.dev.awake = true → s.dev.txn.held = [] →
    ∃ e : Device, exec .halfResetB s = .next { s with dev := e } ∧ halved s.dev e .b))

/-- PERSTh_N falls: the port loses its bus master enable, the half's ACTIVE queues are HELD, and every other state of a queue
stays. It rises: the pin's level alone changes while the device is awake. DORMANT, with no transaction in flight: every
request and session ends, every domain but a tripped one is OFF and no cluster switches. WAKE_N with WAKECFG bit 0 set leaves
it with RSTCAUSE bit 7 in both copies. Points of it that the manual leaves open follow the model's own readings: LOG 17. (file
05: DORMANT and wake, Reset sources; file 11: Queue states and commands.) -/
def Obligations.PcieResetsDormantAndWake : Prop :=
  ((∀ (s : State) (h : Half), s.dev.pins.porstLow = false → s.dev.txn.held = [] →
    ∃ e : Device, exec (.persthNAssertion h) s = .next { s with dev := e }
      ∧ tget true e.pins.persthLow h.idx = true ∧ tget true e.pins.persthLow h.other.idx = tget true s.dev.pins.persthLow h.other.idx
      ∧ (e.port h).bme = false ∧ e.port h.other = s.dev.port h.other
      ∧ ∀ q, e.queue q =
          (if queHalf q = h ∧ (s.dev.queue q).st = .active then { s.dev.queue q with st := .held } else s.dev.queue q))
  ∧ (∀ (s : State) (h : Half), s.dev.power.dormant = false →
    exec (.persthNDeassertion h) s = .next { s with dev := { s.dev with
      pins := { s.dev.pins with persthLow := tset true h.idx false s.dev.pins.persthLow } } }))
  ∧ ((∀ s : State, s.dev.awake = true → s.dev.busySlots = [] →
    ∃ e : Device, exec .dormant s = .next { s with dev := e }
      ∧ e.power.dormant = true ∧ e.service.requests = [] ∧ e.service.sessions = []
      ∧ (∀ k < 10, (e.part k).st = .off ∨ (e.part k).st = .tripped) ∧ ∀ n < 72, e.clusterActive n = false)
  ∧ (∀ s : State, s.dev.power.dormant = true → s.dev.pins.porstLow = false → bit (s.dev.reg .a pdmP 0x8C) 0 = true →
    ∃ e : Device, exec .wakeN s = .next { s with dev := e }
      ∧ e.power.dormant = false ∧ ∀ h, bit (e.reg h pdmP 0x90) 7 = true))

/-- Four samples of VIN across a threshold: below 2.050 V the lockout acts, every part of the half leaves power, no cluster of
one that had it switches; above 2.150 V it is released; above 2.600 V a report of kind 0x18 warns; above 2.700 V no cluster of
the half switches any more. Points of it that the manual leaves open follow the model's own readings: LOG 16. (file 05:
Domains and their states, Power-up and power-down sequences.) -/
def Obligations.VinThresholds : Prop :=
  (∀ (s : State) (h : Half) (v1 v2 v3 v4 : Volt), s.dev.pins.porstLow = false → s.dev.power.plan = [] →
    (∀ v ∈ [v1, v2, v3, v4], 2150 * mV < v) →
    ∃ e : Device, exec (.vinLockoutRelease h [v1, v2, v3, v4]) s = .next { s with dev := e }
      ∧ e.vinOk h = true ∧ e.vinOk h.other = s.dev.vinOk h.other
      ∧ e = { s.dev with pins := { s.dev.pins with vinReleased := e.pins.vinReleased }, power := e.power, link := e.link }
      ∧ e.power = { s.dev.power with group := e.power.group })
  ∧ (∀ (s : State) (h : Half) (v1 v2 v3 v4 : Volt), s.dev.pins.porstLow = false → s.dev.power.plan = [] → s.dev.vinOk h = true →
    s.dev.txn.held = [] → (∀ v ∈ [v1, v2, v3, v4], v < 2050 * mV) →
    ∃ e : Device, exec (.vinUv h [v1, v2, v3, v4]) s = .next { s with dev := e }
      ∧ e.vinOk h = false ∧ e.vinOk h.other = s.dev.vinOk h.other
      ∧ ∀ k ∈ halfParts h, (((e.part k).st = .off ∨ (e.part k).st = .inhibited ∨ (e.part k).st = .tripped)
          ∧ ((s.dev.part k).st ≠ .off → (s.dev.part k).st ≠ .inhibited → (s.dev.part k).st ≠ .tripped →
              ∀ n ∈ partClusters k, e.clusterActive n = false)))
  ∧ (∀ (s : State) (h : Half) (v1 v2 v3 v4 : Volt), s.dev.pins.porstLow = false → (∀ v ∈ [v1, v2, v3, v4], 2600 * mV < v) →
    ∃ e : Device, exec (.vinOvWarn h [v1, v2, v3, v4]) s = .next { s with dev := e }
      ∧ e = { s.dev with cans := e.cans } ∧ reported s.dev e h { unit := 0x67, kind := 0x18, addr := pageBase pdmP })
  ∧ (∀ (s : State) (h : Half) (v1 v2 v3 v4 : Volt), s.dev.pins.porstLow = false → (∀ v ∈ [v1, v2, v3, v4], 2700 * mV < v) →
    ∃ e : Device, exec (.vinOv h [v1, v2, v3, v4]) s = .next { s with dev := e }
      ∧ e = { s.dev with cans := e.cans, regul := e.regul }
      ∧ reported s.dev e h { unit := 0x67, kind := 0x19, addr := pageBase pdmP }
      ∧ (∀ n < 72, cluHalf n = h → e.clusterActive n = false) ∧ ∀ n, cluHalf n ≠ h → e.cluster n = s.dev.cluster n)

/-! ## Power domains (file 05) -/

/-- A command of a domain that passes its checks: ON starts the power-up of its parts at step 1; OFF of a domain that is ON
starts its power-down at step 7, RETAIN likewise with RETAIN as its end; RESET of a domain that is ON holds it in reset. DCMDn
shows the command on both copies while the halves are joined, and no other part changes. (file 05: The PDM page, Power-up and
power-down sequences.) -/
def Obligations.DomainCommands : Prop :=
  ∀ (s : State) (i : Fin 8) (c : Instr) (cmd : Nat), s.dev.awake = true → s.dev.apart = false → s.dev.commandOk i cmd = true →
    s.dev.txn.held = [] →
    (cmd = 2 ∨ cmd = 3 → s.dev.maskAllows (partHalf ((domainParts i).headD 0)) i = true) →
    ((c = .dcmdOff i ∧ cmd = 1) ∨ (c = .dcmdRetain i ∧ cmd = 2) ∨ (c = .dcmdOn i ∧ cmd = 3) ∨ (c = .dcmdReset i ∧ cmd = 4)) →
    (∀ k ∈ domainParts i, (s.dev.part k).st = .on ↔ cmd ≠ 3) →
    ∃ e : Device, exec c s = .next { s with dev := e }
      ∧ (∀ h, e.reg h pdmP (0x40 + 4 * i.val) = cpWord cmd)
      ∧ (∀ k, k ∉ domainParts i → e.part k = s.dev.part k)
      ∧ ∀ k ∈ domainParts i,
          (cmd = 1 → (e.part k).st = .down ∧ (e.part k).step = 7 ∧ (e.part k).toRetain = false)
          ∧ (cmd = 2 → (e.part k).st = .down ∧ (e.part k).step = 7 ∧ (e.part k).toRetain = true)
          ∧ (cmd = 3 → (e.part k).st = .up ∧ (e.part k).step = 1)
          ∧ (cmd = 4 → (e.part k).st = .resetting)

/-- The end of a step of a sequence, outside a boot plan: a power-up whose step 1 holds its checks goes on to step 2, and one
whose check fails is abandoned with the reason in FAIL; step 6 is followed by step 7; a power-down goes from step 5 to 4 and
from 4 to 3; a reset ends ON. No other part changes. A step of a power-up that misses its check or its limit, with a reason
that the step can give, abandons the sequence with the reason in FAIL and a report of kind 0x1C that carries the domain and
the reason. Points of it that the manual leaves open follow the model's own readings: LOG 32. (file 05: Power-up and
power-down sequences.) -/
def Obligations.SequenceSteps : Prop :=
  (∀ (s : State) (k : Fin 10) (m : StartMeas), s.dev.power.plan = [] → s.dev.power.group = [] →
    ∃ e : Device, exec (.sequenceStep k m) s = .next { s with dev := e }
      ∧ (∀ j, j ≠ k.val → e.part j = s.dev.part j)
      ∧ ((s.dev.part k).st = .up → (s.dev.part k).step = 1 → s.dev.step1 k m.vin = 0 → (s.dev.part k).fromRetain = false →
          e.part k = { s.dev.part k with step := 2 })
      ∧ ((s.dev.part k).st = .up → (s.dev.part k).step = 1 → s.dev.step1 k m.vin ≠ 0 →
          (e.part k).st = .abandon ∧ (e.part k).fail = BitVec.ofNat 8 (s.dev.step1 k m.vin))
      ∧ ((s.dev.part k).st = .up → (s.dev.part k).step = 6 → e.part k = { s.dev.part k with step := 7 })
      ∧ ((s.dev.part k).st = .down → (s.dev.part k).step = 5 → e.part k = { s.dev.part k with step := 4 })
      ∧ ((s.dev.part k).st = .down → (s.dev.part k).step = 4 → e.part k = { s.dev.part k with step := 3 })
      ∧ ((s.dev.part k).st = .resetting → e.part k = { s.dev.part k with st := .on, step := 0 }))
  ∧ (∀ (s : State) (k : Fin 10) (reason : Byte), s.dev.power.plan = [] → s.dev.power.group = [] → (s.dev.part k).st = .up →
    s.dev.canMiss k reason.toNat = true →
    ∃ e : Device, exec (.pdSeqFail k reason) s = .next { s with dev := e }
      ∧ (e.part k).st = .abandon ∧ (e.part k).fail = reason ∧ (∀ j, j ≠ k.val → e.part j = s.dev.part j)
      ∧ ((s.dev.part k).fromRetain = false → (k.val < 4 ∨ 6 ≤ k.val) →
          reported s.dev e (partHalf k)
            { unit := 0x67, kind := 0x1C, addr := pageBase pdmP + 0x60 + 4 * partDomain k
              detail := partDomain k * 256 + reason.toNat }))

/-- Cold inhibit and self-warm: after 20 scans the inhibit clears; self-warm starts CORE's power-up at step 1; its timeout
ends it with a report of kind 0x1E. Points of it that the manual leaves open follow the model's own readings: LOG 19. (file
05: Cold inhibit and self-warm.) -/
def Obligations.ColdInhibitAndSelfWarm : Prop :=
  (∀ (s : State) (h : Half), s.dev.inhibited h = true → 20 ≤ (s.dev.therm h).inhibitRun → s.dev.awake = true →
    ∃ e : Device, exec (.coldInhibitClear h) s = .next { s with dev := e }
      ∧ e.inhibited h = false ∧ e.inhibited h.other = s.dev.inhibited h.other ∧ e.warming h = false)
  ∧ (∀ (s : State) (h : Half), s.dev.awake = true → s.dev.inhibited h = true → bit (s.dev.reg .a pdmP 0x88) 0 = true →
    ((s.dev.part (corePart h)).st = .off ∨ (s.dev.part (corePart h)).st = .inhibited) → s.dev.warming h = false →
    s.dev.pins.tripLatch = false → s.dev.vinOk h = true → s.dev.maskAllows h (partDomain (corePart h)) = true →
    (s.dev.canary h).safe = false → tget false s.dev.power.warmDone h.idx = false →
    ∃ e : Device, exec (.selfwarmStart h) s = .next { s with dev := e }
      ∧ e.warming h = true ∧ tget 0#64 e.power.selfwarmAt h.idx = s.dev.tb h
      ∧ (e.part (corePart h)).st = .up ∧ (e.part (corePart h)).step = 1
      ∧ ∀ k, k ≠ corePart h → e.part k = s.dev.part k)
  ∧ (∀ (s : State) (h : Half), s.dev.awake = true → s.dev.warming h = true →
    ∃ e : Device, exec (.selfwarmTimeout h) s = .next { s with dev := e }
      ∧ e.warming h = false ∧ tget false e.power.warmDone h.idx = true
      ∧ ∃ before, (e.canary h).inFlight =
          before ++ [({ unit := 0x67, kind := 0x1E, addr := pageBase pdmP + 0x88 } : Report).message h])

/-! ## Regulation (files 06 and 07) -/

/-- One inner sample of a cluster that switches takes its measurements: the two sensed voltages, VIN, and the currents of the
active cells, whose sum is the cluster's current; a cluster that does not switch takes none. The domains, the transactions and
the other clusters are untouched. Points of it that the manual leaves open follow the model's own readings: LOG 23. (file 07:
The inner loop, Compensator structure.) -/
def Obligations.InnerSampleMeasures : Prop :=
  (∀ (s : State) (n : Fin 72) (m : InnerMeas), s.dev.clusterActive n = true →
    ∃ e : Device, exec (.innerLoopSample n m) s = .next { s with dev := e }
      ∧ e = { withRegs s.dev e with regul := e.regul, cans := e.cans }
      ∧ (e.cluster n).remote = m.remote ∧ (e.cluster n).loc = m.loc ∧ (e.cluster n).vin = m.vin
      ∧ (e.cluster n).current =
          ((List.range 8).map fun c => if ((s.dev.cluster n).cell c).st = .active then m.cells.getD c 0 else 0).sum
      ∧ ∀ j, j ≠ n.val → e.cluster j = s.dev.cluster j)
  ∧ (∀ (s : State) (n : Fin 72) (m : InnerMeas), s.dev.clusterActive n = false →
    exec (.innerLoopSample n m) s = .next s)

/-- A reference moves by at most one step of its slew rate in a sample and never past its target, from either side. A command
of a cluster completes: DONE once the reference is at its target and 16 samples have stayed in the band, LATE with CLASSERR
bit 0 and a report of kind 0x21 after SETTLE.LATE without them; Overman of the half is interrupted by either. Points of it
that the manual leaves open follow the model's own readings: LOG 26. (file 06: Slew and supersession.) -/
def Obligations.Slewing : Prop :=
  (∀ (fu rate : Nat) (vref target : Volt),
    (vref ≤ target → vref ≤ slewStep fu rate vref target ∧ slewStep fu rate vref target ≤ target
        ∧ slewStep fu rate vref target - vref ≤ (512000 * rate / fu : Nat) + 312)
    ∧ (target ≤ vref → target ≤ slewStep fu rate vref target ∧ slewStep fu rate vref target ≤ vref
        ∧ vref - slewStep fu rate vref target ≤ (512000 * rate / fu : Nat) + 312))
  ∧ ((∀ (s : State) (n : Fin 72) (x : Cluster), x = s.dev.cluster n → x.slew.busy = true → x.vref = x.target → 16 ≤ x.settle →
    ∃ e : Device, exec (.slewDone n) s = .next { s with dev := e }
      ∧ e = { s.dev with deputy := { s.dev.deputy with overman := e.deputy.overman }
                         regul := { s.dev.regul with clusters := e.regul.clusters, rails := e.regul.rails } }
      ∧ interrupted s.dev e (cluHalf n) (.slew n)
      ∧ e.cluster n = { x with slew := { x.slew with busy := false, done := true } }
      ∧ (∀ j, j ≠ n.val → e.cluster j = s.dev.cluster j) ∧ ∀ r, r ≠ railOf n → e.rail r = s.dev.rail r)
  ∧ (∀ (s : State) (n : Fin 72) (x : Cluster), x = s.dev.cluster n → x.slew.busy = true → x.vref = x.target → x.settle < 16 →
    fld (s.dev.reg .a (ralP (railOf n)) 0x50) 15 8 * 10 * s.dev.fswUnits (syncOf n) ≤ x.reached * 64 →
    ∃ e : Device, exec (.slewLate n) s = .next { s with dev := e }
      ∧ e = { withRegs s.dev e with cans := e.cans, deputy := { s.dev.deputy with overman := e.deputy.overman }
                                    regul := { s.dev.regul with clusters := e.regul.clusters, rails := e.regul.rails } }
      ∧ interrupted s.dev e (cluHalf n) (.slew n)
      ∧ e.cluster n = { x with slew := { x.slew with busy := false, late := true } }
      ∧ (∀ j, j ≠ n.val → e.cluster j = s.dev.cluster j) ∧ (∀ r, r ≠ railOf n → e.rail r = s.dev.rail r)
      ∧ e.reg .a (cluP n) 0x14 = s.dev.reg .a (cluP n) 0x14 ||| 1#32 ∧ wordsKept s.dev e [regKey .a (cluP n) 0x14]
      ∧ reported s.dev e (cluHalf n) { unit := n.val % 36, kind := 0x21, addr := pageBase (cluP n) }))

/-- An outer sample of a rail: it reads the four sense points and sums the currents of its switching clusters; clusters of
other rails and every other rail are untouched. Points of it that the manual leaves open follow the model's own readings: LOG
23, LOG 24. (file 07: The outer loop.) -/
def Obligations.OuterSampleReadsSense : Prop :=
  ∀ (s : State) (r : Fin 12) (m : OuterMeas), m.wellFormed = true →
    ∃ e : Device, exec (.outerLoopSample r m) s = .next { s with dev := e }
      ∧ e = { withRegs s.dev e with regul := e.regul, cans := e.cans, govs := e.govs, cross := e.cross }
      ∧ wordsKept s.dev e [regKey .a (ralP r) 0x14, regKey .a clkP 0x14, regKey .b clkP 0x14]
      ∧ (∀ k < 4, tget 0 (e.rail r).sense k = m.sense.getD k 0)
      ∧ (e.rail r).current =
          (((railClusters r).filter s.dev.clusterActive).map fun n => (s.dev.cluster n).current).sum
      ∧ (e.rail r).powerN = (s.dev.rail r).powerN + 1
      ∧ (∀ q, q ≠ r.val → e.rail q = s.dev.rail q) ∧ ∀ n, n ∉ railClusters r → e.cluster n = s.dev.cluster n

/-- A trim that has stayed at its clamp for 256 outer samples is reported once, as kind 0x22 with the cell; a rotation that
falls due before the next sample moves every cell of a switching cluster from slot s to slot (s - 1) mod 8, after an add or a
shed one period later; the plausibility counter at 32 is reported as kind 0x26 and starts again. Points of it that the manual
leaves open follow the model's own readings: LOG 12. (file 06: Phase shedding and balancing, Firing-order rotation; file 07:
Plausibility supervision.) -/
def Obligations.TrimRotationPlausibility : Prop :=
  (∀ (s : State) (n : Fin 72) (c : Fin 8), ((s.dev.cluster n).cell c).clamped = 256 →
    ∃ e : Device, exec (.cellTrimLimit n c) s = .next { s with dev := e }
      ∧ e = { withRegs s.dev e with cans := e.cans, regul := { s.dev.regul with clusters := e.regul.clusters } }
      ∧ (e.cluster n).cell c = { (s.dev.cluster n).cell c with clamped := 257 }
      ∧ (∀ j, j ≠ n.val → e.cluster j = s.dev.cluster j) ∧ wordsKept s.dev e [regKey .a (cluP n) 0x14]
      ∧ e.reg .a (cluP n) 0x14 = s.dev.reg .a (cluP n) 0x14 ||| 2#32
      ∧ reported s.dev e (cluHalf n) { unit := n.val % 36, kind := 0x22, addr := pageBase (cluP n), detail := c.val })
  ∧ (∀ (s : State) (n : Fin 72) (x : Cluster), x = s.dev.cluster n → x.st = .active → x.rotDue = false →
    s.dev.rotPeriod n < x.rotAge + 8 →
    ∃ e : Device, exec (.firingRotation n) s = .next { s with dev := e }
      ∧ e = { s.dev with regul := { s.dev.regul with clusters := e.regul.clusters } }
      ∧ (x.changed = false →
          e.cluster n = { x with rotAge := x.rotAge - s.dev.rotPeriod n, rot := (x.rot + 1) % 8, sinceChange := 0 }
          ∧ ∀ c < 8, (e.cluster n).slotOf c = (x.slotOf c + 7) % 8)
      ∧ (x.changed = true → e.cluster n = { x with rotAge := x.rotAge - s.dev.rotPeriod n, rotDue := true })
      ∧ ∀ j, j ≠ n.val → e.cluster j = s.dev.cluster j)
  ∧ (∀ (s : State) (n : Fin 72), 32 ≤ (s.dev.cluster n).plaus →
    ∃ e : Device, exec (.plausibility n) s = .next { s with dev := e }
      ∧ e = { withRegs s.dev e with cans := e.cans, regul := { s.dev.regul with clusters := e.regul.clusters } }
      ∧ e.cluster n = { s.dev.cluster n with plaus := 0 } ∧ (∀ j, j ≠ n.val → e.cluster j = s.dev.cluster j)
      ∧ wordsKept s.dev e [regKey .a (cluP n) 0x14, regKey .a (lpeP n) 0x14]
      ∧ reported s.dev e (cluHalf n) { unit := n.val % 36, kind := 0x26, addr := pageBase (cluP n) })

/-- A sync group: 16 fitting periods of SYNC_IN start it acquiring without spread; a phase match locks it at 8 times SYNC_IN;
a loss while locked glides it back with a report of kind 0x20; the end of the glide frees it at the programmed frequency. Its
PLL's bit of LOCK reads 1 while it is locked to SYNC_IN or runs free. No other group changes. (file 06: Switching clock, sync
and spread spectrum.) -/
def Obligations.SyncGroups : Prop :=
  (∀ (s : State) (g : Fin 4) (periods : List Nat), s.dev.pins.porstLow = false → s.dev.cp .a clkP (0x60 + 4 * g.val) / 64 % 4 = 1 →
    periods.length = 16 → (∀ p ∈ periods, periodFits (s.dev.fswUnits g) p = true) → ((s.dev.sync g).st = .free ∨ (s.dev.sync g).st = .gliding) →
    ∃ e : Device, exec (.syncAcquire g periods) s = .next { s with dev := e }
      ∧ e = { withRegs s.dev e with regul := { s.dev.regul with syncs := e.regul.syncs } } ∧ relocked s.dev e g false
      ∧ e.sync g = { s.dev.sync g with st := .acquiring, spread := false } ∧ ∀ j, j ≠ g.val → e.sync j = s.dev.sync j)
  ∧ (∀ (s : State) (g : Fin 4) (freq : Nat), s.dev.pins.porstLow = false → (s.dev.sync g).st = .acquiring →
    ∃ e : Device, exec (.syncLocked g freq) s = .next { s with dev := e }
      ∧ e = { withRegs s.dev e with regul := { s.dev.regul with syncs := e.regul.syncs } } ∧ relocked s.dev e g true
      ∧ e.sync g = { s.dev.sync g with st := .locked, freq := 8 * freq } ∧ ∀ j, j ≠ g.val → e.sync j = s.dev.sync j)
  ∧ (∀ (s : State) (g : Fin 4), (s.dev.sync g).st = .locked →
    ∃ e : Device, exec (.syncLost g) s = .next { s with dev := e }
      ∧ e = { withRegs s.dev e with cans := e.cans, regul := { s.dev.regul with syncs := e.regul.syncs } }
      ∧ relocked s.dev e g false ∧ e.sync g = { s.dev.sync g with st := .gliding } ∧ (∀ j, j ≠ g.val → e.sync j = s.dev.sync j)
      ∧ reported s.dev e (syncHalf g) { unit := 0x68, kind := 0x20, addr := pageBase clkP + 0x60 + 4 * g.val, detail := g.val })
  ∧ (∀ (s : State) (g : Fin 4), (s.dev.sync g).st = .gliding →
    ∃ e : Device, exec (.glideComplete g) s = .next { s with dev := e }
      ∧ e = { withRegs s.dev e with regul := { s.dev.regul with syncs := e.regul.syncs } } ∧ relocked s.dev e g true
      ∧ (e.sync g).st = .free ∧ (e.sync g).freq = s.dev.fswUnits g * 1250000 ∧ ∀ j, j ≠ g.val → e.sync j = s.dev.sync j)

/-- Sense points and FOLLOW paths: a selected point out of band for 16 outer samples is dropped, one back in band for 16 is
used again; a pulse period of 1 to 10 µs is valid and maps its duty; a lost path holds its code with one report of kind 0x25,
and four valid periods let it resume. Points of it that the manual leaves open follow the model's own readings: LOG 24. (file
07: The outer loop, The FOLLOW path; file 08: Sense-line loss.) -/
def Obligations.SensePointsAndFollow : Prop :=
  (∀ (s : State) (r : Fin 12) (k : Fin 4), (s.dev.senseSel r).contains k.val = true → 16 ≤ tget 0 (s.dev.rail r).senseOut k →
    tget false (s.dev.rail r).senseBad k = false →
    ∃ e : Device, exec (.sensePointInvalid r k) s = .next { s with dev := e }
      ∧ e = { s.dev with cans := e.cans, regul := { s.dev.regul with rails := e.regul.rails } }
      ∧ tget false (e.rail r).senseBad k = true ∧ (∀ j, j ≠ r.val → e.rail j = s.dev.rail j)
      ∧ (e.rail r).lost = (e.senseValid r).isEmpty ∧ (e.senseValid r ≠ [] → e.cans = s.dev.cans)
      ∧ (e.senseValid r = [] → (s.dev.rail r).lost = false → reported s.dev e (ralHalf r) { unit := 0x24 + r.val % 6, kind := 0x24, addr := pageBase (ralP r) }))
  ∧ (∀ (s : State) (r : Fin 12) (k : Fin 4), tget false (s.dev.rail r).senseBad k = true → 16 ≤ tget 0 (s.dev.rail r).senseIn k →
    ∃ e : Device, exec (.sensePointValid r k) s = .next { s with dev := e }
      ∧ e = { s.dev with cans := e.cans, regul := { s.dev.regul with rails := e.regul.rails } }
      ∧ ((s.dev.senseSel r).contains k.val = true → (e.rail r).lost = false ∧ e.cans = s.dev.cans)
      ∧ tget false (e.rail r).senseBad k = false ∧ ∀ j, j ≠ r.val → e.rail j = s.dev.rail j)
  ∧ (∀ (s : State) (r : Fin 12) (high period : Nat), s.dev.ral r 0xA0 % 8 < 2 → 4000 ≤ period → period ≤ 40000 → high ≤ period →
    ∃ e : Device, exec (.pulsePeriod r high period) s = .next { s with dev := e }
      ∧ e = { s.dev with regul := { s.dev.regul with rails := e.regul.rails } }
      ∧ (e.rail r).follow = { (s.dev.rail r).follow with
          mapped := s.dev.followMap r (high * 4096 / period), invalid := 0
          valid := satNat 4 ((s.dev.rail r).follow.valid + 1), periods := (period :: (s.dev.rail r).follow.periods).take 16
          lastEdge := s.dev.tb (ralHalf r) }
      ∧ ∀ j, j ≠ r.val → e.rail j = s.dev.rail j)
  ∧ (∀ (s : State) (r : Fin 12) (f : Follow) (t : W64), f = (s.dev.rail r).follow → f.holding = false →
    s.dev.ral r 0xA0 % 8 ≠ 2 →
    ((4 ≤ f.invalid ∧ t = s.dev.tb (ralHalf r))
      ∨ (f.invalid < 4 ∧ f.periods ≠ [] ∧ t = f.lastEdge + BitVec.ofNat 64 ((4 * (f.periods.sum / f.periods.length) + 39) / 40))
      ∨ (f.invalid < 4 ∧ f.periods = [] ∧ f.selecting = true ∧ t = f.since + 4000#64)) →
    ∃ e : Device, exec (.followLost r) s = .next { s with dev := e }
      ∧ e = { s.dev with time := (s.dev.advanceTo (ralHalf r) t).time, cans := e.cans, regul := { s.dev.regul with rails := e.regul.rails } }
      ∧ (e.rail r).follow = { f with holding := true, valid := 0, selecting := false }
      ∧ (∀ j, j ≠ r.val → e.rail j = s.dev.rail j)
      ∧ reported s.dev e (ralHalf r) { unit := 0x24 + r.val % 6, kind := 0x25, addr := pageBase (ralP r) })
  ∧ (∀ (s : State) (r : Fin 12), ((s.dev.rail r).follow.holding = true ∨ (s.dev.rail r).follow.selecting = true) →
    4 ≤ (s.dev.rail r).follow.valid →
    ∃ e : Device, exec (.followResume r) s = .next { s with dev := e }
      ∧ e = { s.dev with regul := { s.dev.regul with rails := e.regul.rails } }
      ∧ (e.rail r).follow = { (s.dev.rail r).follow with holding := false, selecting := false }
      ∧ ∀ j, j ≠ r.val → e.rail j = s.dev.rail j)

/-- The capture buffer of a half: ARM claims it for one engine while nobody holds it, a trigger starts it, 4,096 samples or
STOP fill it, REL frees it, and a read of CAPD3 returns channel 3 of the selected sample and moves CAPIDX on. (file 07:
Test-signal injection and capture, The LPE page.) -/
def Obligations.CaptureBuffer : Prop :=
  (∀ (s : State) (m : Master) (n : Fin 72) (dec : Byte) (trig : BitVec 2), passes s.dev m (lpeP n) 0x140 →
    (s.dev.capture (cluHalf n)).owner = none →
    ∃ e : Device, exec (.capctlArm m n dec trig) s = .next { s with dev := e }
      ∧ e.capture (cluHalf n) = { owner := some n.val, st := if trig = 1#2 then .running else .armed }
      ∧ e.capture (cluHalf n).other = s.dev.capture (cluHalf n).other
      ∧ e.reg .a (lpeP n) 0x140 = w32 (dec.toNat * 256 + trig.toNat * 8)
      ∧ e.reg .a (lpeP n) 0x24 = s.dev.reg .a (lpeP n) 0x24 + 1#32
      ∧ wordsKept s.dev e [regKey .a (lpeP n) 0x140, regKey .a (lpeP n) 0x24]
      ∧ e = { withRegs s.dev e with regul := { s.dev.regul with captures := e.regul.captures, engines := e.regul.engines } })
  ∧ (∀ (s : State) (m : Master) (n : Fin 72), passes s.dev m (lpeP n) 0x140 → (s.dev.capture (cluHalf n)).owner = some n.val →
    (∃ e : Device, exec (.capctlRel m n) s = .next { s with dev := e }
      ∧ e = { withRegs s.dev e with regul := { s.dev.regul with captures := e.regul.captures } }
      ∧ countsOnce s.dev e m (lpeP n) ∧ e.capture (cluHalf n) = {})
    ∧ ((s.dev.capture (cluHalf n)).st ≠ .idle →
      ∃ e : Device, exec (.capctlStop m n) s = .next { s with dev := e }
        ∧ e = { withRegs s.dev e with regul := { s.dev.regul with captures := e.regul.captures } }
        ∧ countsOnce s.dev e m (lpeP n) ∧ e.capture (cluHalf n) = { s.dev.capture (cluHalf n) with st := .full }))
  ∧ (∀ (s : State) (n : Fin 72), (s.dev.capture (cluHalf n)).owner = some n.val →
    ((s.dev.capture (cluHalf n)).st = .armed → fld (s.dev.reg .a (lpeP n) 0x140) 4 3 ≠ 3 →
      (fld (s.dev.reg .a (lpeP n) 0x140) 4 3 = 0 → (s.dev.engine n).injecting = true) →
      (fld (s.dev.reg .a (lpeP n) 0x140) 4 3 = 2 → (s.dev.capture (cluHalf n)).seen = true) →
      ∃ e : Device, exec (.captureTrigger n) s = .next { s with dev := e }
        ∧ e = { s.dev with regul := { s.dev.regul with captures := e.regul.captures } }
        ∧ e.capture (cluHalf n) = { s.dev.capture (cluHalf n) with st := .running })
    ∧ ((s.dev.capture (cluHalf n)).st = .running → 4096 ≤ (s.dev.capture (cluHalf n)).samples.length →
      ∃ e : Device, exec (.captureFull n) s = .next { s with dev := e }
        ∧ e = { s.dev with regul := { s.dev.regul with captures := e.regul.captures } }
        ∧ e.capture (cluHalf n) = { s.dev.capture (cluHalf n) with st := .full }))
  ∧ (∀ (s : State) (m : Master) (n : Fin 72), arrives s.dev m → s.dev.farPage m (lpeP n) = false →
    ∃ e : Device, exec (.capd3Read m n) s = .next { s with dev := e }
      ∧ e = { withRegs s.dev e with txn := { s.dev.txn with readData := e.txn.readData } }
      ∧ tget 0#32 e.txn.readData (masterIdx m) = (s.dev.capSample n).c3
      ∧ e.reg .a (lpeP n) 0x148 = w32 ((fld (s.dev.reg .a (lpeP n) 0x148) 11 0 + 1) % 4096)
      ∧ wordsKept s.dev e [regKey .a (lpeP n) 0x148])

/-! ## Protection (file 08) -/

/-- The cycle limit ends a period of an active cell whose current exceeds the limit in force, counts it, and counts how many
consecutive periods it has ended; once it has ended 64 the cell latches off, and no other cell of the cluster. The hard-short
comparator counts and reports kind 0x27; a first trip latches nothing. Points of it that the manual leaves open follow the
model's own readings: LOG 27. (file 08: Cycle limit, blanking and fold-back, The hard-short detector.) -/
def Obligations.CellCurrentProtection : Prop :=
  ((∀ (s : State) (n : Fin 72) (c : Fin 8) (i : MilliAmp) (period : Nat), ((s.dev.cluster n).cell c).st = .active →
    exceeds i (s.dev.foldLimit n) (s.dev.halfRipple n) = true → ((s.dev.cluster n).cell c).lastLimit ≠ some period →
    ∃ e : Device, exec (.cycleLimit n c i period) s = .next { s with dev := e }
      ∧ e = { s.dev with regul := { s.dev.regul with clusters := e.regul.clusters } }
      ∧ ((e.cluster n).cell c).inLimit = true ∧ ((e.cluster n).cell c).limits = satInc ((s.dev.cluster n).cell c).limits
      ∧ ((e.cluster n).cell c).limitRun =
          (if 0 < period ∧ ((s.dev.cluster n).cell c).lastLimit = some (period - 1)
           then ((s.dev.cluster n).cell c).limitRun + 1 else 1)
      ∧ (∀ k, k ≠ c.val → (e.cluster n).cell k = (s.dev.cluster n).cell k)
      ∧ ∀ j, j ≠ n.val → e.cluster j = s.dev.cluster j)
  ∧ (∀ (s : State) (n : Fin 72) (c : Fin 8) (p : Nat), s.dev.txn.held = [] → ((s.dev.cluster n).cell c).st = .active →
    ((s.dev.cluster n).cell c).reached64 = some p → 64 ≤ ((s.dev.cluster n).cell c).limitRun →
    (∀ k < 8, k ≠ c.val → ((s.dev.cluster n).cell k).reached64.any (within4 p) = false) →
    (∃ k, k ≠ c.val ∧ k ∈ s.dev.available n) →
    ∃ e : Device, exec (.cellLimit n c) s = .next { s with dev := e }
      ∧ ((e.cluster n).cell c).st = .latched ∧ ((e.cluster n).cell c).reason = 2#4
      ∧ (∀ k, k ≠ c.val → (e.cluster n).cell k = (s.dev.cluster n).cell k
          ∨ (((s.dev.cluster n).cell k).st = .idle ∧ ((e.cluster n).cell k).st = .active))
      ∧ e.reg .a (cluP n) 0x14 = s.dev.reg .a (cluP n) 0x14 ||| 64#32
      ∧ (∀ j, j ≠ n.val → e.cluster j = s.dev.cluster j) ∧ (8 * n.val + c.val) ∈ e.power.retiredCells))
  ∧ (∀ (s : State) (n : Fin 72) (c : Fin 8) (i : MilliAmp) (period : Nat), ((s.dev.cluster n).cell c).st = .active →
    s.dev.txn.held = [] → exceeds i (2 * (s.dev.ilim n : Int), 1) (s.dev.halfRipple n) = true → ((s.dev.cluster n).cell c).lastHard = none →
    (∀ k < 8, k ≠ c.val → ((s.dev.cluster n).cell k).lastHard.any (within4 period) = false) →
    ∃ e : Device, exec (.hardShortEvent n c i period) s = .next { s with dev := e }
      ∧ e = { s.dev with cans := e.cans, regul := { s.dev.regul with clusters := e.regul.clusters } }
      ∧ (e.cluster n).cell c = { (s.dev.cluster n).cell c with
          hards := satInc ((s.dev.cluster n).cell c).hards, lastHard := some period }
      ∧ (∀ k, k ≠ c.val → (e.cluster n).cell k = (s.dev.cluster n).cell k)
      ∧ (∀ j, j ≠ n.val → e.cluster j = s.dev.cluster j)
      ∧ reported s.dev e (cluHalf n) { unit := n.val % 36, kind := 0x27, addr := pageBase (cluP n), detail := c.val })

/-- Brake: a switching cluster in BRAKE mode and AUTO enters it after two samples beyond the margin, and leaves it when the
error has eased or after 16 samples; it may not enter again for 16 samples. Over-voltage for two samples crowbars the cells,
with CLASSERR bit 3 and kind 0x2D; once the voltage has fallen regulation resumes. Under-voltage for 16 samples sets UV with
CLASSERR bit 4 and kind 0x2F. A lost remote sense line falls back to local sense with the reference frozen, CLASSERR bit 5 and
kind 0x30. (file 08: Load release, LINEAR and BRAKE, Over-voltage and under-voltage, Sense-line loss.) -/
def Obligations.BrakeAndVoltageProtection : Prop :=
  ((∀ (s : State) (n : Fin 72) (x : Cluster), x = s.dev.cluster n → x.st = .active → s.dev.brakeMode n = true →
    (s.dev.engineCfg n).manual = false → x.seq = false → 2 ≤ x.prot.brakeRun → x.prot.brakeHold = 0 →
    x.prot.brake = false → x.prot.crowbar = false →
    ∃ e : Device, exec (.brakeEntry n) s = .next { s with dev := e }
      ∧ e = { s.dev with regul := { s.dev.regul with clusters := e.regul.clusters } }
      ∧ e.cluster n = { x with prot := { x.prot with brake := true, brakeAge := 0, brakeCount := satInc x.prot.brakeCount } }
      ∧ ∀ j, j ≠ n.val → e.cluster j = s.dev.cluster j)
  ∧ (∀ (s : State) (n : Fin 72) (x : Cluster), x = s.dev.cluster n → x.prot.brake = true →
    (x.prot.brakeEase = true ∨ 16 ≤ x.prot.brakeAge) →
    ∃ e : Device, exec (.brakeExit n) s = .next { s with dev := e }
      ∧ e = { s.dev with regul := { s.dev.regul with clusters := e.regul.clusters } }
      ∧ e.cluster n = { x with prot := { x.prot with brake := false, brakeHold := 16 } }
      ∧ ∀ j, j ≠ n.val → e.cluster j = s.dev.cluster j))
  ∧ ((∀ (s : State) (n : Fin 72) (x : Cluster), x = s.dev.cluster n → x.st = .active → 2 ≤ x.prot.ovRun → x.prot.crowbar = false →
    ∃ e : Device, exec (.ov n) s = .next { s with dev := e }
      ∧ e = { withRegs s.dev e with cans := e.cans, regul := { s.dev.regul with clusters := e.regul.clusters } }
      ∧ (e.cluster n).prot.crowbar = true ∧ (e.cluster n).prot.brake = false
      ∧ (e.cluster n).prot.ovCount = satInc x.prot.ovCount ∧ (e.cluster n).prot.lastOv = some (s.dev.tb (cluHalf n))
      ∧ (∀ j, j ≠ n.val → e.cluster j = s.dev.cluster j)
      ∧ e.reg .a (cluP n) 0x14 = s.dev.reg .a (cluP n) 0x14 ||| 8#32 ∧ wordsKept s.dev e [regKey .a (cluP n) 0x14]
      ∧ reported s.dev e (cluHalf n) { unit := n.val % 36, kind := 0x2D, addr := pageBase (cluP n), detail := reportCell n 0x2D })
  ∧ (∀ (s : State) (n : Fin 72) (x : Cluster), x = s.dev.cluster n → x.prot.crowbar = true → x.prot.ovRepeat = false →
    s.dev.txn.held = [] → x.loc ≤ s.dev.judgeRef n → (x.prot.fallback = true ∨ x.remote ≤ s.dev.judgeRef n) →
    ∃ e : Device, exec (.ovResume n) s = .next { s with dev := e }
      ∧ e = { s.dev with regul := { s.dev.regul with clusters := e.regul.clusters, engines := e.regul.engines } }
      ∧ e.cluster n = { x with sinceChange := 0, prot := { x.prot with crowbar := false, ovRun := 0 } }
      ∧ ∀ j, j ≠ n.val → e.cluster j = s.dev.cluster j)
  ∧ (∀ (s : State) (n : Fin 72) (x : Cluster), x = s.dev.cluster n → x.st = .active → 16 ≤ x.prot.uvRun → x.prot.uv = false →
    ∃ e : Device, exec (.uv n) s = .next { s with dev := e }
      ∧ e = { withRegs s.dev e with cans := e.cans, regul := { s.dev.regul with clusters := e.regul.clusters } }
      ∧ e.cluster n = { x with prot := { x.prot with uv := true } } ∧ (∀ j, j ≠ n.val → e.cluster j = s.dev.cluster j)
      ∧ e.reg .a (cluP n) 0x14 = s.dev.reg .a (cluP n) 0x14 ||| 16#32 ∧ wordsKept s.dev e [regKey .a (cluP n) 0x14]
      ∧ reported s.dev e (cluHalf n) { unit := n.val % 36, kind := 0x2F, addr := pageBase (cluP n), detail := reportCell n 0x2F })
  ∧ (∀ (s : State) (n : Fin 72) (x : Cluster), x = s.dev.cluster n → x.st = .active →
    (4 ≤ x.prot.senseRun1 ∨ 8 ≤ x.prot.senseRun2) → x.prot.fallback = false →
    ∃ e : Device, exec (.senseLost n) s = .next { s with dev := e }
      ∧ e = { withRegs s.dev e with cans := e.cans, govs := e.govs
                                    regul := { s.dev.regul with
                                      clusters := e.regul.clusters, engines := e.regul.engines, rails := e.regul.rails } }
      ∧ (e.cluster n).prot = { x.prot with fallback := true } ∧ (e.cluster n).target = x.vref ∧ (e.cluster n).vref = x.vref
      ∧ (∀ j, j ≠ n.val → e.cluster j = s.dev.cluster j)
      ∧ e.reg .a (cluP n) 0x14 = s.dev.reg .a (cluP n) 0x14 ||| 32#32 ∧ wordsKept s.dev e [regKey .a (cluP n) 0x14]
      ∧ reported s.dev e (cluHalf n) { unit := n.val % 36, kind := 0x30, addr := pageBase (cluP n), detail := reportCell n 0x30 }))

/-! ## Governor, DVFS and heat (file 09) -/

/-- A lull that has not reached its target after 200 cycles ends there. A pool refills by its rail's refill per cycle, up to
the gust and to what the budget leaves above the level, and not at all under the minimum budget; the level of a bay without a
ramp, a lull or a heater pattern, and of a layer at rest, stays, and a cycle passes. Only the governor and the bays' null op
counts change. The 1 ms boundary: time passes to the next multiple of 1 ms (the halves joined, no count being slewed), each
half's bin is its rails' mean power, the package figure FAST of both halves is the sum of the two bins while the halves are
joined, and the sums of every rail start again. Points of it that the manual leaves open follow the model's own readings: LOG
25, LOG 51. (file 09: Power tallies, Release and the lull, Package power and the budget.) -/
def Obligations.GovernorTime : Prop :=
  ((∀ (s : State) (h : Half) (k : Fin 32) (target cycles : Nat),
    ((s.dev.gov h).spender k).lull = some (target, cycles) → 200 ≤ cycles →
    ∃ e : Device, exec (.lullTimeout h k) s = .next { s with dev := e } ∧ e = { s.dev with govs := e.govs }
      ∧ (e.gov h).spender k = { (s.dev.gov h).spender k with level := target, lull := none }
      ∧ (∀ j, j ≠ k.val → (e.gov h).spender j = (s.dev.gov h).spender j) ∧ e.gov h.other = s.dev.gov h.other)
  ∧ (∀ (s : State) (h : Half), s.dev.pins.porstLow = false → (h = .b → s.dev.time.slew = 0) →
    (∀ l ∈ s.dev.usedSlots, (s.dev.lode l).stepping = false) →
    ∃ e : Device, exec (.poolRefill h) s = .next { s with dev := e }
      ∧ e = { s.dev with time := e.time, govs := e.govs, compute := { s.dev.compute with bays := e.compute.bays } }
      ∧ (∀ k, e.bay k = { s.dev.bay k with nulls := (e.bay k).nulls })
      ∧ e.tb h = s.dev.tb h + 1#64 ∧ e.gov h.other = s.dev.gov h.other
      ∧ ∀ k < 32, ((s.dev.gov h).spender k).need = none → ((s.dev.gov h).spender k).lull = none →
          (if k < 28 then s.dev.heating h k = false else ((s.dev.gov h).spender k).level = 0) →
          ((e.gov h).spender k).level = ((s.dev.gov h).spender k).level
            ∧ ((e.gov h).spender k).pool =
                (if (s.dev.gov h).minimum then ((s.dev.gov h).spender k).pool
                 else min (((s.dev.gov h).spender k).pool + s.dev.refill h k)
                   (min (s.dev.gust h k) (s.dev.budget h k - ((s.dev.gov h).spender k).level)))))
  ∧ (∀ s : State, s.dev.pins.porstLow = false → s.dev.apart = false → s.dev.time.tbB.toNat + 100000 < 2 ^ 64 →
    s.dev.time.tbA.toNat ≤ s.dev.time.tbB.toNat → s.dev.time.slew = 0 →
    ∃ e : Device, exec .oneMsBoundary s = .next { s with dev := e }
      ∧ e.time.tbA = nextMultiple 100000 s.dev.time.tbA
      ∧ (∀ h, (e.gov h).bin = s.dev.binOf h ∧ (e.gov h).fast = s.dev.binOf .a + s.dev.binOf .b)
      ∧ (∀ r < 12, (e.rail r).power = 0 ∧ (e.rail r).powerN = 0)
      ∧ (∀ n, e.cluster n = s.dev.cluster n) ∧ (∀ k, e.part k = s.dev.part k))

/-- A half's core clock: a new target starts the spare PLL's lock to the highest code at or below it that VFTAB allows, with
the spare's LOCK bit clear, unless that code is in force already or a fallback forbids it; a target that replaces a waiting
one counts, sets CLASSERR bit 2 and interrupts Overman. A lock to a frequency no higher than the one in force switches at
once; an upward one waits for SLEW_DONE and switches then, unless a fallback has come to forbid it; a spare that does not lock
leaves the clock as it is, with CLASSERR bit 0 and a report of kind 0x40 that carries the code. Points of it that the manual
leaves open follow the model's own readings: LOG 24. (file 09: The DVFS arbiter.) -/
def Obligations.FrequencyChanges : Prop :=
  (∀ (s : State) (h : Half) (g : Governor), g = s.dev.gov h → s.dev.fTarget h ≠ g.fT →
    (s.dev.part (corePart h)).st = .on → (s.dev.canary h).safe = false → g.locking = none →
    ∃ e : Device, exec (.frequencyRequest h) s = .next { s with dev := e } ∧ e = { withRegs s.dev e with govs := e.govs }
      ∧ e.gov h.other = s.dev.gov h.other ∧ wordsKept s.dev e [regKey .a clkP 0x40, regKey .b clkP 0x40]
      ∧ (∀ f, s.dev.selectable h (s.dev.fTarget h) = some f → f ≠ g.active → g.mayTake f = true →
          e.gov h = { g with fT := s.dev.fTarget h, retry := false, locking := some f }
            ∧ bit (e.reg .a clkP 0x40) (16 * h.idx + g.spareBit) = false)
      ∧ ((∀ f, s.dev.selectable h (s.dev.fTarget h) = some f → f = g.active ∨ g.mayTake f = false) →
          e.gov h = { g with fT := s.dev.fTarget h, retry := false } ∧ e.regs = s.dev.regs))
  ∧ (∀ (s : State) (h : Half) (f : Nat) (g : Governor), g = s.dev.gov h → s.dev.fTarget h ≠ g.fT →
    (s.dev.part (corePart h)).st = .on → (s.dev.canary h).safe = false → g.locking.isSome = true → g.waiting.isSome = true →
    s.dev.selectable h (s.dev.fTarget h) = some f →
    ∃ e : Device, exec (.frequencyRequest h) s = .next { s with dev := e }
      ∧ e = { withRegs s.dev e with govs := e.govs, deputy := { s.dev.deputy with overman := e.deputy.overman } }
      ∧ e.gov h = { g with fT := s.dev.fTarget h, retry := false, waiting := some f, supCount := satInc g.supCount }
      ∧ e.gov h.other = s.dev.gov h.other ∧ interrupted s.dev e h .superseded
      ∧ e.reg .a (govP h) 0x14 = s.dev.reg .a (govP h) 0x14 ||| 4#32 ∧ wordsKept s.dev e [regKey .a (govP h) 0x14])
  ∧ (∀ (s : State) (h : Half) (f : Nat) (g : Governor), g = s.dev.gov h → g.locking = some f → g.waitSlew = none →
    g.waiting = none →
    ∃ e : Device, exec (.pllLockComplete h) s = .next { s with dev := e } ∧ e = { withRegs s.dev e with govs := e.govs }
      ∧ bit (e.reg .a clkP 0x40) (16 * h.idx + g.spareBit) = true
      ∧ wordsKept s.dev e [regKey .a clkP 0x40, regKey .b clkP 0x40] ∧ e.gov h.other = s.dev.gov h.other
      ∧ (f ≤ g.active → e.gov h = { g with active := f, locking := none, waitSlew := none, pong := !g.pong })
      ∧ (g.mayTake f = false → e.gov h = { g with locking := none, waitSlew := none })
      ∧ (g.active < f → g.mayTake f = true → s.dev.slewReady h f = false → e.gov h = { g with waitSlew := some f }))
  ∧ (∀ (s : State) (h : Half) (f : Nat) (g : Governor), g = s.dev.gov h → g.waitSlew = some f → g.waiting = none →
    s.dev.slewReady h f = true →
    ∃ e : Device, exec (.frequencySwitch h) s = .next { s with dev := e } ∧ e = { s.dev with govs := e.govs }
      ∧ (g.mayTake f = true → e.gov h = { g with active := f, locking := none, waitSlew := none, pong := !g.pong })
      ∧ (g.mayTake f = false → e.gov h = { g with locking := none, waitSlew := none })
      ∧ e.gov h.other = s.dev.gov h.other)
  ∧ (∀ (s : State) (h : Half) (f : Nat) (g : Governor), g = s.dev.gov h → g.locking = some f → g.waitSlew = none →
    ∃ e : Device, exec (.dvfsLockFail h) s = .next { s with dev := e }
      ∧ e = { withRegs s.dev e with govs := e.govs, cans := e.cans }
      ∧ e.gov h = { g with locking := none, waiting := none, retry := true } ∧ e.gov h.other = s.dev.gov h.other
      ∧ e.reg .a (govP h) 0x14 = s.dev.reg .a (govP h) 0x14 ||| 1#32 ∧ wordsKept s.dev e [regKey .a (govP h) 0x14]
      ∧ reported s.dev e h { unit := 0x66, kind := 0x40, addr := pageBase (govP h) + 0x84, detail := f })

/-- A scan counts in SCANS, gives every sensor its count and reading, and leaves the other half's sensors alone. Where the
count of some sensor reaches THOT_TRIP of its group, within the sensor's span, it trips the package: the trip latch is set,
every part of every domain is TRIPPED and no cluster switches. Three implausible scans make a sensor invalid, with CLASSERR
bit 0 and a report of kind 0x3C; 20 plausible ones make it valid again. Points of it that the manual leaves open follow the
model's own readings: LOG 54. (file 09: Temperature sensors, Thresholds.) -/
def Obligations.ThermalSensing : Prop :=
  (∀ (s : State) (h : Half) (counts : List Nat), s.dev.pins.porstLow = false → s.dev.pins.tripLatch = false →
    s.dev.txn.held = [] →
    ∃ e : Device, exec (.thermalScan h counts) s = .next { s with dev := e }
      ∧ (e.therm h).scans = (s.dev.therm h).scans + 1#32 ∧ e.therm h.other = s.dev.therm h.other
      ∧ (∀ i < 60, (e.sensor h i).count = counts.getD i 0 ∧ (e.sensor h i).reading = sensorReading h i (counts.getD i 0)
          ∧ (e.sensor h i).invalid = (s.dev.sensor h i).invalid)
      ∧ ∀ i < 60, inSpan (sensorReading h i (counts.getD i 0)) = true →
          countReaches h i (counts.getD i 0) (s.dev.threshold h 4 (sensorGroup i)) = true →
          e.pins.tripLatch = true ∧ (∀ k < 10, (e.part k).st = .tripped) ∧ ∀ n < 72, e.clusterActive n = false)
  ∧ ((∀ (s : State) (h : Half) (i : Fin 60), 3 ≤ (s.dev.sensor h i).bad → (s.dev.sensor h i).invalid = false →
    ∃ e : Device, exec (.thmSensorFault h i) s = .next { s with dev := e }
      ∧ e = { withRegs s.dev e with therms := e.therms, cans := e.cans }
      ∧ e.sensor h i = { s.dev.sensor h i with invalid := true } ∧ (∀ j, j ≠ i.val → e.sensor h j = s.dev.sensor h j)
      ∧ e.therm h.other = s.dev.therm h.other
      ∧ e.reg .a (thmP h) 0x14 = s.dev.reg .a (thmP h) 0x14 ||| 1#32 ∧ wordsKept s.dev e [regKey .a (thmP h) 0x14]
      ∧ reported s.dev e h
          { unit := 0x65, kind := 0x3C, addr := pageBase (thmP h) + (0x100 + 4 * i.val), detail := i.val })
  ∧ (∀ (s : State) (h : Half) (i : Fin 60), (s.dev.sensor h i).invalid = true → 20 ≤ (s.dev.sensor h i).good →
    ∃ e : Device, exec (.sensorValid h i) s = .next { s with dev := e } ∧ e = { s.dev with therms := e.therms }
      ∧ e.sensor h i = { s.dev.sensor h i with invalid := false } ∧ (∀ j, j ≠ i.val → e.sensor h j = s.dev.sensor h j)
      ∧ e.therm h.other = s.dev.therm h.other))

/-! ## Bays, tile movers and steps (file 10) -/

/-- An op of each of the sixteen codes that holds its tallies and draws its level fires: it counts, takes its input tiles,
writes an accumulator result to the buffer, and retires, or goes on writing while its output stream lacks space; SAMPLE gives
Overman a token of its row. The ECC outcome corrected counts and is reported as kind 0x49, and uncorrectable isolates the bay
with kind 0x4A. An op of any code that lacks a data tally, a space tally or its power waits and counts what it waits for;
nothing else changes but what its governor's level draws. Points of it that the manual leaves open follow the model's own
readings: LOG 8, LOG 9, LOG 21. (file 10: Bays and engines, The tally model, Memory and bay faults, The BAY page.) -/
def Obligations.OpsFireAndWait : Prop :=
  (∀ (s : State) (k : Fin 56) (ecc : Ecc) (l : Nat) (o : OpWord), opFires s.dev k 0x01 l o →
    ∃ e : Device, exec (.opMma k ecc) s = .next { s with dev := e } ∧ opFired s.dev e k ecc l o)
  ∧ (∀ (s : State) (k : Fin 56) (ecc : Ecc) (l : Nat) (o : OpWord), opFires s.dev k 0x02 l o →
    ∃ e : Device, exec (.opAccout k ecc) s = .next { s with dev := e } ∧ opFired s.dev e k ecc l o)
  ∧ (∀ (s : State) (k : Fin 56) (ecc : Ecc) (l : Nat) (o : OpWord), opFires s.dev k 0x10 l o →
    ∃ e : Device, exec (.opAdd k ecc) s = .next { s with dev := e } ∧ opFired s.dev e k ecc l o)
  ∧ (∀ (s : State) (k : Fin 56) (ecc : Ecc) (l : Nat) (o : OpWord), opFires s.dev k 0x11 l o →
    ∃ e : Device, exec (.opMul k ecc) s = .next { s with dev := e } ∧ opFired s.dev e k ecc l o)
  ∧ (∀ (s : State) (k : Fin 56) (ecc : Ecc) (l : Nat) (o : OpWord), opFires s.dev k 0x12 l o →
    ∃ e : Device, exec (.opFma k ecc) s = .next { s with dev := e } ∧ opFired s.dev e k ecc l o)
  ∧ (∀ (s : State) (k : Fin 56) (ecc : Ecc) (l : Nat) (o : OpWord), opFires s.dev k 0x13 l o →
    ∃ e : Device, exec (.opMin k ecc) s = .next { s with dev := e } ∧ opFired s.dev e k ecc l o)
  ∧ (∀ (s : State) (k : Fin 56) (ecc : Ecc) (l : Nat) (o : OpWord), opFires s.dev k 0x14 l o →
    ∃ e : Device, exec (.opMax k ecc) s = .next { s with dev := e } ∧ opFired s.dev e k ecc l o)
  ∧ (∀ (s : State) (k : Fin 56) (ecc : Ecc) (l : Nat) (o : OpWord), opFires s.dev k 0x15 l o →
    ∃ e : Device, exec (.opCmp k ecc) s = .next { s with dev := e } ∧ opFired s.dev e k ecc l o)
  ∧ (∀ (s : State) (k : Fin 56) (ecc : Ecc) (l : Nat) (o : OpWord), opFires s.dev k 0x16 l o →
    ∃ e : Device, exec (.opSel k ecc) s = .next { s with dev := e } ∧ opFired s.dev e k ecc l o)
  ∧ (∀ (s : State) (k : Fin 56) (ecc : Ecc) (l : Nat) (o : OpWord), opFires s.dev k 0x17 l o →
    ∃ e : Device, exec (.opExp k ecc) s = .next { s with dev := e } ∧ opFired s.dev e k ecc l o)
  ∧ (∀ (s : State) (k : Fin 56) (ecc : Ecc) (l : Nat) (o : OpWord), opFires s.dev k 0x18 l o →
    ∃ e : Device, exec (.opRecip k ecc) s = .next { s with dev := e } ∧ opFired s.dev e k ecc l o)
  ∧ (∀ (s : State) (k : Fin 56) (ecc : Ecc) (l : Nat) (o : OpWord), opFires s.dev k 0x19 l o →
    ∃ e : Device, exec (.opRsqrt k ecc) s = .next { s with dev := e } ∧ opFired s.dev e k ecc l o)
  ∧ (∀ (s : State) (k : Fin 56) (ecc : Ecc) (l : Nat) (o : OpWord), opFires s.dev k 0x1A l o →
    ∃ e : Device, exec (.opRowsum k ecc) s = .next { s with dev := e } ∧ opFired s.dev e k ecc l o)
  ∧ (∀ (s : State) (k : Fin 56) (ecc : Ecc) (l : Nat) (o : OpWord), opFires s.dev k 0x1B l o →
    ∃ e : Device, exec (.opRowmax k ecc) s = .next { s with dev := e } ∧ opFired s.dev e k ecc l o)
  ∧ (∀ (s : State) (k : Fin 56) (ecc : Ecc) (l : Nat) (o : OpWord), opFires s.dev k 0x1C l o →
    ∃ e : Device, exec (.opCvt k ecc) s = .next { s with dev := e } ∧ opFired s.dev e k ecc l o)
  ∧ (∀ (s : State) (k : Fin 56) (ecc : Ecc) (l : Nat) (o : OpWord), opFires s.dev k 0x20 l o →
    ∃ e : Device, exec (.opSample k ecc) s = .next { s with dev := e } ∧ opFired s.dev e k ecc l o)
  ∧ (∀ (s : State) (c : Instr) (k : Fin 56) (ecc : Ecc) (code l : Nat) (o : OpWord), opCommand c k ecc code →
    opTurn s.dev k code l o →
    ∃ e : Device, exec c s = .next { s with dev := e } ∧ opWaits s.dev e k l o)

/-- A tally message that arrives at an end of a stream between tile movers and bays becomes a tally there, and its instant is
kept; no bay changes while none is writing. A tile mover in service with work, its crosscut up and its power drawn, begins a
tile of one of its streams or contexts; a move that ends without a memory error counts, writes the tile it carries to its
consumer, or across to a mover of the other half, and sends its tally; a faulty mover, while its half has another, is isolated
with a report of kind 0x4D. The background scrub of a half whose SEAM is ON comes to its next word, counts a corrected one and
reports it as kind 0x44 of the word's layer. When it comes there, and the report's address, are the model's choices (DESIGN
CHOICE, LOG 72, LOG 9). Points of it that the manual leaves open follow the model's own readings: LOG 9, LOG 57. (file 10:
Memory tiers, The tally model, Memory and bay faults.) -/
def Obligations.TilesTalliesAndScrub : Prop :=
  (∀ (s : State) (l : Fin 64) (i : W16) (x : Stream), x = (s.dev.lode l).stream i.toNat →
    endType x.producer ≠ 2 → endType x.consumer ≠ 2 → ((∀ k, (s.dev.bay k).firing = false) ∨ endType x.producer = 1) →
    (x.spaceMsgs ≠ 0 →
      ∃ e : Device, exec (.tallyMessage l i .space) s = .next { s with dev := e } ∧ e = { s.dev with compute := e.compute }
        ∧ (e.lode l).stream i.toNat =
            { x with spaceMsgs := x.spaceMsgs - 1, space := x.space + 1, moved := s.dev.tb (endOn x.consumer) }
        ∧ (∀ j, j ≠ i.toNat → (e.lode l).stream j = (s.dev.lode l).stream j) ∧ (∀ j, j ≠ l.val → e.lode j = s.dev.lode j)
        ∧ ∀ k, e.bay k = s.dev.bay k)
    ∧ (x.dataMsgs ≠ 0 →
      ∃ e : Device, exec (.tallyMessage l i .data) s = .next { s with dev := e } ∧ e = { s.dev with compute := e.compute }
        ∧ (e.lode l).stream i.toNat =
            { x with dataMsgs := x.dataMsgs - 1, data := x.data + 1, moved := s.dev.tb (endOn x.consumer) }
        ∧ (∀ j, j ≠ i.toNat → (e.lode l).stream j = (s.dev.lode l).stream j) ∧ (∀ j, j ≠ l.val → e.lode j = s.dev.lode j)
        ∧ ∀ k, e.bay k = s.dev.bay k))
  ∧ ((∀ (s : State) (m : Fin 16), (s.dev.mover m).isolated = false → (s.dev.mover m).moving = none →
    s.dev.isOn (seamPart (moverHalf m)) = true → s.dev.moverWork m ≠ [] →
    (∀ w ∈ s.dev.moverWork m, ((s.dev.lode w.1).stream w.2).cross = true → s.dev.apart = false ∧ s.dev.crosscutUp = true) →
    (∀ w ∈ s.dev.moverWork m, ∀ n, s.dev.moverLayer w.1 w.2 = some n →
      (s.dev.draw (moverHalf m) (28 + n) seamCost).1 = true) →
    ∃ e : Device, exec (.tileMove m) s = .next { s with dev := e } ∧ e = { s.dev with compute := e.compute, govs := e.govs }
      ∧ (∃ l i, (l, i) ∈ s.dev.moverWork m ∧ e.mover m = { s.dev.mover m with moving := some (l, i), last := (l, i) }
          ∧ (∀ j, j ≠ l → e.lode j = s.dev.lode j)
          ∧ ((e.lode l).stream i).flight = ((s.dev.lode l).stream i).flight
              + (if i < 0x10000 ∧ ((s.dev.lode l).stream i).leg (moverHalf m) ≠ some .relay then 1 else 0))
      ∧ (∀ j, j ≠ m.val → e.mover j = s.dev.mover j) ∧ ∀ k, e.bay k = s.dev.bay k)
  ∧ (∀ (s : State) (m : Fin 16) (l i : Nat) (x : Stream) (t : Tile), (s.dev.mover m).moving = some (l, i) → i < 0x10000 →
    x = (s.dev.lode l).stream i → x.flight ≠ 0 → (s.dev.lode l).stepping = true →
    t = (s.dev.lode l).memoryTile i { x with begun := x.begun - 1 } →
    (∀ u, s.dev.armedFor (moverHalf m) u 0 = none) →
    ∃ e : Device, exec (.tileMoveDone m .clean) s = .next { s with dev := e }
      ∧ e = { s.dev with compute := e.compute, govs := e.govs }
      ∧ e.mover m = { s.dev.mover m with moving := none, tiles := (s.dev.mover m).tiles + 1#32 }
      ∧ (x.legOf (moverHalf m) = .produce → x.relays = false → (e.lode l).stream i = { x with
          flight := x.flight - 1, tiles := x.tiles ++ [t], dataMsgs := x.dataMsgs + 1, moved := s.dev.tb (endOn x.consumer) })
      ∧ (x.legOf (moverHalf m) = .produce → x.relays = true → (e.lode l).stream i = { x with relay := x.relay ++ [t] })
      ∧ (x.legOf (moverHalf m) = .relay → (e.lode l).stream i = { x with
          flight := x.flight - 1, tiles := x.tiles ++ x.relay.take 1, relay := x.relay.drop 1, dataMsgs := x.dataMsgs + 1
          moved := s.dev.tb (endOn x.consumer) })
      ∧ (x.legOf (moverHalf m) = .consume → (e.lode l).stream i = { x with
          flight := x.flight - 1, spaceMsgs := x.spaceMsgs + 1, moved := s.dev.tb (endOn x.consumer) })
      ∧ (∀ j, j ≠ i → (e.lode l).stream j = (s.dev.lode l).stream j) ∧ (∀ j, j ≠ l → e.lode j = s.dev.lode j)
      ∧ (∀ j, j ≠ m.val → e.mover j = s.dev.mover j) ∧ ∀ k, e.bay k = s.dev.bay k)
  ∧ (∀ (s : State) (m : Fin 16), (s.dev.mover m).isolated = false →
    (∃ j < 16, j ≠ m.val ∧ moverHalf j = moverHalf m ∧ (s.dev.mover j).isolated = false) →
    ∃ e : Device, exec (.tmFault m) s = .next { s with dev := e } ∧ e = { s.dev with compute := e.compute, cans := e.cans }
      ∧ e.mover m = { s.dev.mover m with isolated := true, moving := none }
      ∧ (∀ j, j ≠ m.val → e.mover j = s.dev.mover j) ∧ (∀ k, e.bay k = s.dev.bay k)
      ∧ reported s.dev e (moverHalf m)
          { unit := 0x50 + m.val % 8, kind := 0x4D
            addr := pageBase (memP (10 + (moverHalf m).idx)) + (0x40 + 4 * (m.val % 8)) }))
  ∧ (∀ (s : State) (h : Half) (c : MemCounts) (d : Device), c = s.dev.mem h.idx → s.dev.isOn (seamPart h) = true →
    d = s.dev.advanceTo h (c.scrubFrom
      + BitVec.ofNat 64 ((c.scrubbed + 1) * (fld (s.dev.reg .a (memP h.idx) 0x5C) 7 0 * 360000000000) / 2 ^ 30)) →
    ∃ e : Device, ∃ addr : Nat, exec (.backgroundScrub h (.corrected true)) s = .next { s with dev := e }
      ∧ e = { s.dev with time := { d.time with freeCount := d.time.freeCount + 2 }, cans := e.cans
                         compute := { s.dev.compute with mems := e.compute.mems } }
      ∧ e.mem h.idx = { c with ce := satInc c.ce
                               scrubbed := if 2 ^ 30 ≤ c.scrubbed + 1 then 0 else c.scrubbed + 1
                               scrubFrom := if 2 ^ 30 ≤ c.scrubbed + 1 then d.tb h else c.scrubFrom }
      ∧ (∀ k, k ≠ h.idx → e.mem k = s.dev.mem k)
      ∧ reported s.dev e h
          { unit := 0x58 + c.scrubbed / 2 ^ 28 % 4, kind := 0x44, addr, access := 6, wide := true })

/-- A step boundary of a resident lode that is not stepping puts the service keys in force for it; one at which its step is
complete counts a step on every bay that ran it. A step that a lost bay ran is repeated, once, with its batch kept and its
requests marked as retried; BAY.CTL holds a bay at its next step boundary. Points of it that the manual leaves open follow the
model's own readings: LOG 9. (file 10: Memory and bay faults, The BAY page; file 12: Steps and continuous batching.) -/
def Obligations.StepsRepeatsAndHold : Prop :=
  (∀ (s : State) (l : Fin 64), (s.dev.lode l).st = .resident →
    ((s.dev.lode l).stepping = false → (s.dev.lode l).repeating = false →
      ∃ e : Device, exec (.stepBoundary l) s = .next { s with dev := e }
        ∧ (tget {} e.service.lodePolicy l : Policy) = s.dev.service.policy ∧ e.service.policy = s.dev.service.policy)
    ∧ (s.dev.stepComplete l = true → (s.dev.lode l).bays.Nodup →
      ∃ e : Device, exec (.stepBoundary l) s = .next { s with dev := e }
        ∧ ∀ k ∈ (s.dev.lode l).bays, (e.bay k).steps = (s.dev.bay k).steps + 1#32))
  ∧ ((∀ (s : State) (l : Fin 64) (lost : Fin 56), ((s.dev.bay lost).isolated = true ∨ (s.dev.bay lost).retired = true) →
    lost.val ∈ (s.dev.lode l).bays → (s.dev.lode l).stepping = true → (s.dev.lode l).repeating = false →
    ((s.dev.abandonStep l).assignBays (s.dev.lode l).programs).any (·.2.bay.isNone) = false →
    ∃ e : Device, exec (.stepRepeat l lost) s = .next { s with dev := e }
      ∧ (e.lode l).repeating = true ∧ (e.lode l).rows = (s.dev.lode l).rows ∧ e.regs = s.dev.regs)
  ∧ (∀ (s : State) (m : Master) (k : Fin 56), passes s.dev m (bayP k) 0x40 →
    ∃ e : Device, exec (.bayHold m k) s = .next { s with dev := e } ∧ e = withRegs s.dev e
      ∧ e.bayHeld k = true ∧ e.reg .a (bayP k) 0x24 = s.dev.reg .a (bayP k) 0x24 + 1#32
      ∧ wordsKept s.dev e [regKey .a (bayP k) 0x40, regKey .a (bayP k) 0x24]))

/-- A stream of a step in progress that has moved no tally for STALL ms is reported at that instant by its bay, with CLASSERR
bit 2 and kind 0x4C; a bay that has retired nothing until its lockup limit, while its op holds all its tallies, is isolated,
with CLASSERR bit 1 and kind 0x4B, its buffer lost and the bay recorded. Points of it that the manual leaves open follow the
model's own readings: LOG 21. (file 10: The tally model, Memory and bay faults.) -/
def Obligations.StallsAndLockups : Prop :=
  (∀ (s : State) (l : Fin 64) (i : W16) (k : Nat) (x : Stream), x = (s.dev.lode l).stream i.toNat →
    (s.dev.lode l).stepping = true → s.dev.stepComplete l = false →
    (s.dev.lode l).streamNumbers.contains i.toNat = true → (s.dev.lode l).stallBay x = some k →
    ∃ e : Device, exec (.tallyStall l i) s = .next { s with dev := e }
      ∧ e = { withRegs s.dev e with time := e.time, cans := e.cans }
      ∧ e.time = (s.dev.advanceTo (endOn x.consumer)
          (x.moved + BitVec.ofNat 64 (fld (s.dev.reg .a (bayP k) 0x68) 15 0 * ms))).time
      ∧ e.reg .a (bayP k) 0x14 = s.dev.reg .a (bayP k) 0x14 ||| 4#32 ∧ wordsKept s.dev e [regKey .a (bayP k) 0x14]
      ∧ reported s.dev e (bayHalf k) { unit := 0x30 + k % 28, kind := 0x4C, addr := pageBase (bayP k), detail := i.toNat })
  ∧ (∀ (s : State) (k : Fin 56), s.dev.bayUsable k = true → s.dev.opHolds k = true → (s.dev.bay k).isolated = false →
    (s.dev.bay k).retired = false →
    ∃ e : Device, exec (.bayLockup k) s = .next { s with dev := e }
      ∧ e.time = (s.dev.advanceTo (bayHalf k) (s.dev.lockupAt k)).time
      ∧ (e.bay k).isolated = true ∧ (e.bay k).buffer = [] ∧ (e.bay k).cause = 0x4B ∧ k.val ∈ e.power.retiredBays
      ∧ (∀ j, j ≠ k.val → e.bay j = s.dev.bay j)
      ∧ e.reg .a (bayP k) 0x14 = s.dev.reg .a (bayP k) 0x14 ||| 2#32 ∧ wordsKept s.dev e [regKey .a (bayP k) 0x14]
      ∧ reported s.dev e (bayHalf k) { unit := 0x30 + k.val % 28, kind := 0x4B, addr := pageBase (bayP k) })

/-! ## Queues and packets (files 11 and 12) -/

/-- A write into the window of an ACTIVE queue that lies within BYTELIM and does not wrap lands in the ingress ring at WB plus
its offset modulo the capacity; every other byte of the ring stays. A read of a window answers 0. A write of RHEAD within the
unread bytes moves RHEAD; one that is no multiple of 64 sets CLASSERR bit 3 and moves nothing. A doorbell of LEN 1 to 1,024
moves WB by 64 LEN; where the span is one packet that passes the framing checks and has a command of its own, the packet is
accepted: it waits, ACCSEQ takes its sequence, and the accepted bytes grow by its padded length. A doorbell of LEN 0 to a
queue that does not discard is itself discarded, with CLASSERR bit 2 and kind 0x56. Points of it that the manual leaves open
follow the model's own readings: LOG 36. (file 11: Writing packets: window and doorbell, Response rings and credit mailboxes,
The QUE page.) -/
def Obligations.WindowDoorbellAndRhead : Prop :=
  ((∀ (s : State) (q : Fin 1024) (off : W16) (bytes : List Byte) (x : Queue) (p : Nat), x = s.dev.queue q →
    p = x.wb.toNat + off.toNat → x.st = .active → x.discard = false → arrives s.dev (portMaster (queHalf q)) →
    off.toNat + bytes.length ≤ 0x10000 → bytes.length ≤ (s.dev.byteLimit q - w32 p).toNat →
    (s.dev.byteLimit q - w32 p).toNat ≤ 2 ^ 31 → p % s.dev.queCap q + bytes.length ≤ s.dev.queCap q →
    tabWf (fun _ => 0#8) x.ring = true →
    ∃ e : Device, exec (.windowWrite q off bytes false) s = .next { s with dev := e }
      ∧ e = { s.dev with host := { s.dev.host with queues := e.host.queues } } ∧ (∀ j, j ≠ q.val → e.queue j = s.dev.queue j)
      ∧ e.queue q = { x with ring := (e.queue q).ring, missing := (e.queue q).missing, poison := (e.queue q).poison }
      ∧ getBytes (e.queue q).ring (p % s.dev.queCap q) bytes.length = bytes
      ∧ (∀ a, (a < p % s.dev.queCap q ∨ p % s.dev.queCap q + bytes.length ≤ a) → byteAt (e.queue q).ring a = byteAt x.ring a)
      ∧ ∀ i, ((i ∈ (e.queue q).missing ↔ i ∈ x.missing ∧ ∀ k < bytes.length, i ≠ (p + k) % 2 ^ 32)
          ∧ (i ∈ (e.queue q).poison ↔ i ∈ x.poison ∧ ∀ k < bytes.length, i ≠ (p + k) % 2 ^ 32)))
  ∧ (∀ (s : State) (m : Master) (off : BitVec 24) (q : Fin 1024) (bytes : List Byte) (one poisoned : Bool), arrives s.dev m →
    ∃ e : Device, exec (.registerWrite ⟨m, off, none, one, poisoned, .window q bytes⟩) s = .next { s with dev := e }
      ∧ e = { s.dev with txn := { s.dev.txn with readData := e.txn.readData } }
      ∧ tget 0#32 e.txn.readData (masterIdx m) = 0#32
      ∧ ∀ j, j ≠ masterIdx m → tget 0#32 e.txn.readData j = tget 0#32 s.dev.txn.readData j)
  ∧ (∀ (s : State) (m : Master) (q : Fin 1024) (v : W32), passes s.dev m (queP q) 0x54 →
    (v.toNat % 64 = 0 → (v - (s.dev.queue q).rheadV).toNat ≤ ((s.dev.queue q).rtail - (s.dev.queue q).rheadV).toNat →
      ∃ e : Device, exec (.rhead m q v) s = .next { s with dev := e }
        ∧ e = { withRegs s.dev e with host := { s.dev.host with queues := e.host.queues } }
        ∧ e.queue q = { s.dev.queue q with rheadV := v } ∧ (∀ j, j ≠ q.val → e.queue j = s.dev.queue j)
        ∧ countsOnce s.dev e m (queP q))
    ∧ (v.toNat % 64 ≠ 0 →
      ∃ e : Device, exec (.rhead m q v) s = .next { s with dev := e } ∧ e = withRegs s.dev e
        ∧ e.reg .a (queP q) 0x14 = s.dev.reg .a (queP q) 0x14 ||| 8#32 ∧ wordsKept s.dev e [regKey .a (queP q) 0x14])))
  ∧ (∀ (s : State) (m : Master) (q : Fin 1024) (v : W32) (n : Nat) (x : Queue), x = s.dev.queue q → n = fld v 10 0 →
    passes s.dev m (queP q) 0x50 →
    (1 ≤ n → n ≤ 1024 → x.st = .active → x.discard = false →
      ∃ e : Device, exec (.doorbell m q v) s = .next { s with dev := e } ∧ (e.queue q).wb = x.wb + w32 (64 * n)
        ∧ ∀ p, s.dev.parseOne q x.wb.toNat (x.wb.toNat + 64 * n) = .packet p → p.padded = 64 * n → p.stray = false →
            e = { withRegs s.dev e with host := { s.dev.host with queues := e.host.queues } }
              ∧ countsOnce s.dev e m (queP q) ∧ (∀ j, j ≠ q.val → e.queue j = s.dev.queue j)
              ∧ (e.queue q).inbox = x.inbox ++ [p] ∧ (e.queue q).accSeq = p.seq
              ∧ (e.queue q).accBytes = x.accBytes + w32 p.padded ∧ (e.queue q).out = x.out ∧ (e.queue q).ring = x.ring
              ∧ (e.queue q).pktLim = x.pktLim ∧ (e.queue q).byteLim = x.byteLim ∧ (e.queue q).st = .active)
    ∧ (n = 0 → x.discard = false →
      ∃ e : Device, exec (.doorbell m q v) s = .next { s with dev := e } ∧ e = { withRegs s.dev e with cans := e.cans }
        ∧ e.reg .a (queP q) 0x14 = s.dev.reg .a (queP q) 0x14 ||| 4#32 ∧ wordsKept s.dev e [regKey .a (queP q) 0x14]
        ∧ reported s.dev e (queHalf q)
            { unit := 0x100 + q.val % 512, kind := 0x56, addr := pageBase (queP q) + 0x50, master := masterCode m
              access := 1 }))

/-- The queue commands, each in the state that lists it: ENABLE makes a DISABLED queue with its rings set ACTIVE, its counters
at 0 and its credits at its depth and capacity; DISABLE ends an idle queue; RESET of a queue with no request in a step empties
it, ends its requests and sessions and restores its page; RESUME makes a HELD queue ACTIVE with PORT_RESET first; RESYNC ends
discarding. Points of it that the manual leaves open follow the model's own readings: LOG 29. (file 11: Queue states and
commands.) -/
def Obligations.QueueCommands : Prop :=
  ∀ (s : State) (m : Master) (q : Fin 1024) (x : Queue), x = s.dev.queue q → passes s.dev m (queP q) 0x64 →
    (x.st = .disabled → s.dev.ringBase q ≠ 0#64 → s.dev.mailbox q ≠ 0#64 →
      ∃ e : Device, exec (.qEnable m q) s = .next { s with dev := e }
        ∧ e = { withRegs s.dev e with host := { s.dev.host with queues := e.host.queues } } ∧ countsOnce s.dev e m (queP q)
        ∧ (∀ j, j ≠ q.val → e.queue j = s.dev.queue j)
        ∧ e.queue q = { st := .active, pktLim := w32 (s.dev.queDepth q), byteLim := w32 (s.dev.queCap q), mailDue := true
                        out := (e.queue q).out, zeroTime := (e.queue q).zeroTime, zeroWin := (e.queue q).zeroWin
                        zeroSince := (e.queue q).zeroSince })
    ∧ (x.st = .active → s.dev.queueBusy q = false → s.dev.owesAnswer q = false → x.out = [] →
      ∃ e : Device, exec (.qDisable m q) s = .next { s with dev := e }
        ∧ e = { withRegs s.dev e with host := { s.dev.host with queues := e.host.queues } } ∧ countsOnce s.dev e m (queP q)
        ∧ (∀ j, j ≠ q.val → e.queue j = s.dev.queue j)
        ∧ e.queue q = { x with st := .disabled, saturated := false, zeroSince := none })
    ∧ (x.st ≠ .resetting → (∀ r ∈ s.dev.service.requests, r.queue = q.val → r.st ≠ .running) →
      ∃ e : Device, exec (.qReset m q) s = .next { s with dev := e }
        ∧ e = { withRegs s.dev e with host := { s.dev.host with queues := e.host.queues }, service := e.service
                                      compute := e.compute, deputy := e.deputy, nvm := e.nvm }
        ∧ e.service.requests = s.dev.service.requests.filter (fun r => r.queue != q.val)
        ∧ e.service.sessions = s.dev.service.sessions.filter (fun r => r.queue != q.val)
        ∧ (∀ j, j ≠ q.val → e.queue j = s.dev.queue j)
        ∧ e.queue q = { st := .disabled
                        resetEvent := some ((s.dev.service.requests.filter fun r => r.queue == q.val).length
                            + (x.inbox.filter (·.opens q)).length,
                          (s.dev.service.sessions.filter fun r => r.queue == q.val).length) }
        ∧ e.reg .a (queP q) 0x24 = s.dev.reg .a (queP q) 0x24 + 1#32
        ∧ (∀ off, off < 0x1000 → off ≠ 0x1C → off ≠ 0x24 →
            e.reg .a (queP q) off = regReset (regKey .a (queP q) off))
        ∧ ∀ k, (k < pageBase (queP q) ∨ pageBase (queP q) + 0x1000 ≤ k) → keeps s.dev e k)
    ∧ (x.st = .held →
      ∃ e : Device, exec (.qResume m q) s = .next { s with dev := e }
        ∧ e = { withRegs s.dev e with host := { s.dev.host with queues := e.host.queues } } ∧ countsOnce s.dev e m (queP q)
        ∧ (∀ j, j ≠ q.val → e.queue j = s.dev.queue j)
        ∧ e.queue q = { x with
            st := .active, rtail := 0#32, rheadV := 0#32, wb := x.accBytes
            out := eventPkt (s.dev.tb (queHalf q)) 0x0002 0 x.accSeq.toNat 0 :: x.out, mailDue := true
            zeroTime := (e.queue q).zeroTime, zeroWin := (e.queue q).zeroWin, zeroSince := (e.queue q).zeroSince })
    ∧ (x.st = .active → x.discard = true →
      ∃ e : Device, exec (.qResync m q) s = .next { s with dev := e }
        ∧ e = { withRegs s.dev e with host := { s.dev.host with queues := e.host.queues } } ∧ countsOnce s.dev e m (queP q)
        ∧ (∀ j, j ≠ q.val → e.queue j = s.dev.queue j)
        ∧ e.queue q = { x with
            wb := x.accBytes, discard := false, mailDue := true
            zeroTime := (e.queue q).zeroTime, zeroWin := (e.queue q).zeroWin, zeroSince := (e.queue q).zeroSince })

/-- A REQUEST that passes its checks joins the requests, INPUT with MORE and WAITING without; a CONTINUE adds its tokens to a
request in INPUT; a CANCEL of a request that does not run ends it with CANCELLED and is answered OK with a count of 1, and one
of a request that runs marks it. SESSION_OPEN for a resident lode whose context fits makes a session of the queue on the half
and tier of R229, with an identifier that is not 0 and has not been used, and answers with it; SESSION_CLOSE of a session with
no request ends it. Points of it that the manual leaves open follow the model's own readings: LOG 7, LOG 38. (file 12:
Requests, sessions and steps, Cancellation; file 11: Packet layouts; file 10: Residence and placement.) -/
def Obligations.RequestAndSessionPackets : Prop :=
  ((∀ (s : State) (q : Fin 1024) (p : Packet), takes s.dev q 0x01 p → p.len = 96 + 4 * fieldAt p.bytes 36 4 →
    zerosAt p.bytes 60 4 = true → s.dev.headerFault q p (s.dev.resident p.lode) true = none →
    (s.dev.apart && s.dev.crossesLink q p.lode) = false → requestOk p (s.dev.lode p.lode).vocab = true →
    s.dev.haltsLode q p.lode = false → s.dev.resident p.lode = true → p.notify = false →
    ∃ e : Device, exec (.request q) s = .next { s with dev := e }
      ∧ e = { s.dev with host := { s.dev.host with queues := e.host.queues }
                         service := { s.dev.service with requests := s.dev.service.requests ++ [s.dev.requestOf q p] } }
      ∧ (s.dev.requestOf q p).st = (if p.more then .input else .waiting) ∧ (s.dev.requestOf q p).tag = p.seq
      ∧ replied s.dev e q [] [])
  ∧ (∀ (s : State) (q : Fin 1024) (p : Packet) (r : Request), takes s.dev q 0x02 p →
    p.len = 48 + 4 * fieldAt p.bytes 36 4 → zerosAt p.bytes 40 8 = true →
    s.dev.findRequest q (w32 (fieldAt p.bytes 32 4)) = some r → r.st = .input →
    s.dev.headerFault q p (p.lode == r.lode) (p.session == r.session) = none →
    tokensBelow (s.dev.lode r.lode).vocab (p.words 48 (fieldAt p.bytes 36 4)) = true → p.notify = false →
    ∃ e : Device, exec (.continuePacket q) s = .next { s with dev := e }
      ∧ e = { s.dev with host := { s.dev.host with queues := e.host.queues }
                         service := { s.dev.service with requests := e.service.requests } }
      ∧ e.findRequest q r.tag = some { r with
          input := r.input ++ p.words 48 (fieldAt p.bytes 36 4), st := if p.more then .input else .waiting }
      ∧ (∀ k t, (k ≠ q.val ∨ t ≠ r.tag) → e.findRequest k t = s.dev.findRequest k t)
      ∧ replied s.dev e q [] [p.padded])
  ∧ (∀ (s : State) (q : Fin 1024) (p : Packet) (r : Request), takes s.dev q 0x03 p → zerosAt p.bytes 36 4 = true →
    r.tag = w32 (fieldAt p.bytes 32 4) → r.tag ≠ 0xFFFFFFFF#32 → r.queue = q.val →
    s.dev.headerFault q p (p.lode == 0xFFFF) (p.session == 0#32) = none →
    s.dev.service.requests.filter (fun y => y.queue == q.val && y.tag == r.tag) = [r] → s.dev.service.closings = [] →
    (r.st ≠ .running →
      ∃ e : Device, exec (.cancel q) s = .next { s with dev := e }
        ∧ e = { s.dev with host := { s.dev.host with queues := e.host.queues }
                           service := { s.dev.service with requests := e.service.requests } }
        ∧ e.service.requests = s.dev.service.requests.filter (fun y => !y.is q r.tag)
        ∧ replied s.dev e q [r.head true (statusPkt (s.dev.tb (queHalf q)) r.tag 0x0002 0 0 0),
            statusPkt (s.dev.tb (queHalf q)) p.seq 0 0 1 0] [r.padded, p.padded])
    ∧ (r.st = .running →
      ∃ e : Device, exec (.cancel q) s = .next { s with dev := e }
        ∧ e = { s.dev with host := { s.dev.host with queues := e.host.queues }
                           service := { s.dev.service with requests := e.service.requests, closings := e.service.closings } }
        ∧ e.service.requests = s.dev.service.requests.map (fun y => if y.is q r.tag then { y with marked := true } else y)
        ∧ replied s.dev e q [] [])))
  ∧ ((∀ (s : State) (q : Fin 1024) (p : Packet), takes s.dev q 0x04 p → zerosAt p.bytes 36 4 = true →
    s.dev.headerFault q p (s.dev.resident p.lode) (p.session == 0#32) = none → s.dev.resident p.lode = true →
    (s.dev.apart && s.dev.crossesLink q p.lode) = false → s.dev.service.sessions.length < 65536 →
    s.dev.contextTier p.lode ≠ 0 → s.dev.service.usedIds.length + 2 < 2 ^ 32 →
    ∃ e : Device, ∃ ident : W32, exec (.sessionOpen q) s = .next { s with dev := e }
      ∧ ident ≠ 0#32 ∧ ident ∉ s.dev.service.usedIds
      ∧ e = { s.dev with time := { s.dev.time with freeCount := s.dev.time.freeCount + 1 }
                         host := { s.dev.host with queues := e.host.queues }
                         service := { s.dev.service with
                           usedIds := ident :: s.dev.service.usedIds
                           sessions := s.dev.service.sessions ++ [{ ident, queue := q, lode := p.lode
                                                                    half := s.dev.contextHalf p.lode
                                                                    inSeam := s.dev.contextTier p.lode == 1 }] } }
      ∧ replied s.dev e q [{ statusPkt (s.dev.tb (queHalf q)) p.seq 0 0 (s.dev.contextTier p.lode - 1) (fieldAt p.bytes 32 4) with
          session := ident, lode := BitVec.ofNat 16 p.lode }] [p.padded])
  ∧ (∀ (s : State) (q : Fin 1024) (p : Packet), takes s.dev q 0x05 p →
    s.dev.headerFault q p (p.lode == 0xFFFF) true true = none → p.session ≠ 0#32 →
    (∀ r ∈ s.dev.service.requests, ¬ (r.queue = q.val ∧ r.session = p.session)) → s.dev.service.closings = [] →
    ∃ e : Device, exec (.sessionClose q) s = .next { s with dev := e }
      ∧ e = { s.dev with host := { s.dev.host with queues := e.host.queues }
                         service := { s.dev.service with sessions := e.service.sessions } }
      ∧ e.service.sessions = s.dev.service.sessions.filter (fun c => c.ident != p.session)
      ∧ replied s.dev e q [statusPkt (s.dev.tb (queHalf q)) p.seq 0 0 0 0] [p.padded]))

/-- A lode is loaded: LOAD_BEGIN opens an EMPTY slot with the image's halves, size and header, LOAD_DATA writes its bytes into
the image, LOAD_END of a good image puts the slot behind the placements and of a bad one releases it with BAD_IMAGE, and the
oldest placement makes its lode RESIDENT. UNLOAD of a slot that is loading, or of a resident lode that nothing uses, leaves it
EMPTY. Points of it that the manual leaves open follow the model's own readings: LOG 9, LOG 11, LOG 38. (file 10: Lode slots,
Lode images, Residence and placement, Unload; file 11: Packet layouts.) -/
def Obligations.LodePackets : Prop :=
  (∀ (s : State) (q : Fin 1024) (p : Packet) (hs : List Half) (size : Nat), takes s.dev q 0x10 p → p.lode < 64 →
    hs = halvesOf (fieldAt (slice p.bytes 32 64) 6 1) → size = fieldAt (slice p.bytes 32 64) 8 8 →
    (s.dev.lode p.lode).st = .empty → (s.dev.apart && hs.any fun h => h != queHalf q) = false → s.dev.loadDomains hs = true →
    (∀ h ∈ hs, halfShare size hs ≤ s.dev.freeDram h) →
    ∃ e : Device, exec (.loadBegin q) s = .next { s with dev := e }
      ∧ e = { s.dev with host := { s.dev.host with queues := e.host.queues }
                         compute := { s.dev.compute with lodes := e.compute.lodes } }
      ∧ e.lode p.lode = { st := .loading, halves := hs, size, image := putBytes [] 0 (slice p.bytes 32 64)
                          dram := (e.lode p.lode).dram }
      ∧ (∀ h, tget 0 (e.lode p.lode).dram h.idx = if h ∈ hs then halfShare size hs else 0)
      ∧ (∀ j, j ≠ p.lode → e.lode j = s.dev.lode j)
      ∧ replied s.dev e q [{ statusPkt (s.dev.tb (queHalf q)) p.seq 0 0 0 0 with lode := BitVec.ofNat 16 p.lode }] [p.padded])
  ∧ (∀ (s : State) (q : Fin 1024) (p : Packet) (off : Nat), takes s.dev q 0x11 p → zerosAt p.bytes 40 8 = true →
    off = fieldAt p.bytes 32 8 → s.dev.loadingSlot p.lode = true → off % 64 = 0 →
    off + (p.bytes.drop 48).length ≤ (s.dev.lode p.lode).size →
    ∃ e : Device, exec (.loadData q) s = .next { s with dev := e }
      ∧ e = { s.dev with host := { s.dev.host with queues := e.host.queues }
                         compute := { s.dev.compute with lodes := e.compute.lodes } }
      ∧ e.lode p.lode = { s.dev.lode p.lode with image := (e.lode p.lode).image }
      ∧ getBytes (e.lode p.lode).image off (p.bytes.drop 48).length = p.bytes.drop 48
      ∧ (∀ j, j ≠ p.lode → e.lode j = s.dev.lode j)
      ∧ replied s.dev e q [{ statusPkt (s.dev.tb (queHalf q)) p.seq 0 0 0 0 with lode := BitVec.ofNat 16 p.lode }] [p.padded])
  ∧ (∀ (s : State) (q : Fin 1024) (p : Packet), takes s.dev q 0x12 p → s.dev.loadingSlot p.lode = true →
    (imageCheck (s.dev.lode p.lode).image = 0 → (s.dev.apart && (s.dev.lode p.lode).spans) = false →
      ∃ e : Device, exec (.loadEnd q) s = .next { s with dev := e }
        ∧ e = { s.dev with host := { s.dev.host with queues := e.host.queues }
                           compute := { s.dev.compute with
                             lodes := e.compute.lodes, placing := s.dev.compute.placing ++ [p.lode] } }
        ∧ (e.lode p.lode).st = .placing ∧ (e.lode p.lode).image = (s.dev.lode p.lode).image
        ∧ (∀ j, j ≠ p.lode → e.lode j = s.dev.lode j) ∧ replied s.dev e q [] [])
    ∧ (imageCheck (s.dev.lode p.lode).image ≠ 0 →
      ∃ e : Device, exec (.loadEnd q) s = .next { s with dev := e }
        ∧ e.lode p.lode = {} ∧ (∀ j, j ≠ p.lode → e.lode j = s.dev.lode j)
        ∧ replied s.dev e q [{ statusPkt (s.dev.tb (queHalf q)) p.seq 0x0015 (imageCheck (s.dev.lode p.lode).image) 0 0 with
            lode := BitVec.ofNat 16 p.lode }] [p.padded]))
  ∧ (∀ (s : State) (l : Fin 64) (y : Lode) (a : Asker), s.dev.compute.placing.head? = some l.val →
    (s.dev.lode l).st = .placing → s.dev.placeLode l = .inr y → y.demoted = 0 → (s.dev.lode l).unloadAsker = none →
    (s.dev.lode l).asker = some a → (s.dev.queue a.queue).st = .active →
    ∃ e : Device, exec (.lodePlaced l) s = .next { s with dev := e }
      ∧ e = { s.dev with host := { s.dev.host with queues := e.host.queues }
                         compute := { s.dev.compute with
                           lodes := e.compute.lodes, placing := s.dev.compute.placing.drop 1 } }
      ∧ (e.lode l).st = .resident ∧ (e.lode l).tensors = y.tensors ∧ (∀ j, j ≠ l.val → e.lode j = s.dev.lode j)
      ∧ (e.queue a.queue).out = (s.dev.queue a.queue).out
          ++ [{ statusPkt (s.dev.tb (queHalf a.queue)) a.seq 0 0 0 0 with lode := a.lode }]
      ∧ ∀ j, j ≠ a.queue → e.queue j = s.dev.queue j)
  ∧ (∀ (s : State) (q : Fin 1024) (p : Packet), takes s.dev q 0x13 p → p.lode < 64 →
    ((s.dev.lode p.lode).st = .loading ∨ ((s.dev.lode p.lode).st = .resident ∧ (s.dev.lode p.lode).stepping = false
      ∧ (s.dev.lode p.lode).repeating = false ∧ ∀ r ∈ s.dev.service.requests, r.lode ≠ p.lode)) →
    ∃ e : Device, exec (.unload q) s = .next { s with dev := e }
      ∧ e.lode p.lode = {} ∧ (∀ j, j ≠ p.lode → e.lode j = s.dev.lode j)
      ∧ e.service.sessions = s.dev.service.sessions.filter (fun c => c.lode != p.lode)
      ∧ replied s.dev e q [{ statusPkt (s.dev.tb (queHalf q)) p.seq 0 0 0 0 with lode := BitVec.ofNat 16 p.lode }] [p.padded])

/-! ## Overman and Deputy (file 13) -/

/-- An Overman image in boot mode: FW_BEGIN opens the load and clears the reserve, FW_DATA writes it, and FW_END of an image
that passes every check starts it on the receiving half while the crosscut is down, to serve within 40 ms; one that fails ends
with FW_REJECTED and FW_AUTH_FAIL. Points of it that the manual leaves open follow the model's own readings: LOG 3, LOG 38.
(file 13: Boot mode and loading Overman; file 11: Packet layouts.) -/
def Obligations.ImagePackets : Prop :=
  (∀ (s : State) (q : Fin 1024) (p : Packet), takes s.dev q 0x20 p → s.dev.serverOf q = .deputy → zerosAt p.bytes 40 8 = true →
    1 ≤ fieldAt p.bytes 32 8 → fieldAt p.bytes 32 8 ≤ 50331648 → s.dev.deputy.load = none →
    (∀ h, (s.dev.ovman h).st ≠ .starting) →
    ∃ e : Device, exec (.fwBegin q) s = .next { s with dev := e }
      ∧ e = { s.dev with host := { s.dev.host with queues := e.host.queues }, deputy := e.deputy }
      ∧ e.deputy.load = some { queue := q, seq := p.seq, size := fieldAt p.bytes 32 8 }
      ∧ e.ovman (queHalf q) = { st := .loading } ∧ e.reserveOf (queHalf q) = []
      ∧ e.ovman (queHalf q).other = { s.dev.ovman (queHalf q).other with restartUsed := false }
      ∧ replied s.dev e q [statusPkt (s.dev.tb (queHalf q)) p.seq 0 0 0 0] [p.padded])
  ∧ (∀ (s : State) (q : Fin 1024) (p : Packet) (l : FwLoad) (off : Nat), takes s.dev q 0x21 p → zerosAt p.bytes 40 8 = true →
    s.dev.deputy.load = some l → l.queue = q.val → off = fieldAt p.bytes 32 8 → off % 64 = 0 →
    off + (p.bytes.drop 48).length ≤ l.size →
    ∃ e : Device, exec (.fwData q) s = .next { s with dev := e }
      ∧ e = { s.dev with host := { s.dev.host with queues := e.host.queues }
                         deputy := { s.dev.deputy with load := e.deputy.load, reserve := e.deputy.reserve } }
      ∧ getBytes (e.reserveOf (queHalf q)) off (p.bytes.drop 48).length = p.bytes.drop 48
      ∧ e.reserveOf (queHalf q).other = s.dev.reserveOf (queHalf q).other
      ∧ replied s.dev e q [statusPkt (s.dev.tb (queHalf q)) p.seq 0 0 0 0] [p.padded])
  ∧ (∀ (s : State) (q : Fin 1024) (p : Packet) (l : FwLoad), takes s.dev q 0x22 p → s.dev.deputy.load = some l →
    l.queue = q.val → s.dev.crosscutUp = false →
    ∃ e : Device, exec (.fwEnd q) s = .next { s with dev := e }
      ∧ e = { s.dev with host := { s.dev.host with queues := e.host.queues }, deputy := e.deputy, cans := e.cans }
      ∧ e.deputy.load = none
      ∧ (s.dev.authenticate l = 0 →
          (e.ovman (queHalf q)).st = .starting ∧ (e.ovman (queHalf q)).deadline = s.dev.tb (queHalf q) + 4000000#64
            ∧ (e.ovman (queHalf q)).kick = s.dev.tb (queHalf q) ∧ e.ovman (queHalf q).other = s.dev.ovman (queHalf q).other
            ∧ e.cans = s.dev.cans ∧ replied s.dev e q [] [])
      ∧ (s.dev.authenticate l ≠ 0 →
          e.ovman (queHalf q) = {}
            ∧ replied s.dev e q [statusPkt (s.dev.tb (queHalf q)) p.seq 0x0016 (s.dev.authenticate l) 0 0] [p.padded]
            ∧ reported s.dev e (queHalf q) { unit := 0x64, kind := 0x66, addr := pageBase depP }))

/-- Overman reports serving while its 40 ms run: it serves, and the set-point freeze and the safe budget end. A start that is
late is rejected with FW_REJECTED 0x09. WDKICK starts the watchdog's count again. A watchdog that expires stops Overman: the
half's requests and sessions end, its bays are held, and the set-points are frozen. An access of a service core outside its
rights is reported, and a read returns 0. Points of it that the manual leaves open follow the model's own readings: LOG 40.
(file 13: Boot mode and loading Overman, Overman loss and restart, The trust boundary.) -/
def Obligations.OvermanService : Prop :=
  (∀ (s : State) (m : Master) (h : Half), passes s.dev m ovmP 0x44 → h ∈ s.dev.copies (homeOf m) ovmP →
    s.dev.mayServe h = true →
    ∃ e : Device, exec (.serve m) s = .next { s with dev := e } ∧ countsOnce s.dev e m ovmP
      ∧ (e.ovman h).st = .serving ∧ (e.ovman h).asker = none ∧ (e.gov h).frozen = false ∧ (e.gov h).safe = false
      ∧ (e.ovman h).version = (s.dev.ovman h).version)
  ∧ (∀ (s : State) (h : Half) (a : Asker), (s.dev.ovman h).st = .starting → (s.dev.ovman h).asker = some a →
    (s.dev.queue a.queue).st = .active → (s.dev.ovman h).deadline.toNat ≤ (s.dev.watchdogAt h).toNat →
    s.dev.waitsToServe h.other = false →
    ∃ e : Device, exec (.serveTimeout h) s = .next { s with dev := e }
      ∧ (e.ovman h).st = .absent ∧ (e.ovman h).asker = none
      ∧ (e.queue a.queue).out = (s.dev.queue a.queue).out
          ++ [{ statusPkt (e.tb (queHalf a.queue)) a.seq 0x0016 0x09 0 0 with lode := a.lode }]
      ∧ reported s.dev e h { unit := 0x64, kind := 0x66, addr := pageBase depP })
  ∧ (∀ (s : State) (m : Master), passes s.dev m ovmP 0x48 →
    ∃ e : Device, exec (.wdkick m) s = .next { s with dev := e }
      ∧ e = { withRegs s.dev e with deputy := { s.dev.deputy with overman := e.deputy.overman } }
      ∧ countsOnce s.dev e m ovmP
      ∧ (∀ h ∈ s.dev.copies (homeOf m) ovmP, e.ovman h = { s.dev.ovman h with kick := s.dev.tb h })
      ∧ ∀ h, h ∉ s.dev.copies (homeOf m) ovmP → e.ovman h = s.dev.ovman h)
  ∧ (∀ (s : State) (h : Half), (s.dev.ovman h).st = .serving → s.dev.ovmAlive h.other = false →
    bit (s.dev.reg h ovmP 0x50) 0 = false →
    ∃ e : Device, exec (.ovmWatchdog h) s = .next { s with dev := e }
      ∧ (e.ovman h).st = .lost ∧ (e.ovman h).stopped = true ∧ (e.gov h).frozen = true ∧ (e.gov h).safe = true
      ∧ (∀ r ∈ e.service.requests, queHalf r.queue ≠ h) ∧ (∀ c ∈ e.service.sessions, queHalf c.queue ≠ h)
      ∧ (∀ k ∈ halfBays h, e.bayHeld k = true)
      ∧ reported s.dev e h { unit := 0x60, kind := 0x65, addr := pageBase ovmP })
  ∧ (∀ (s : State) (core : Fin 8) (write : Bool) (addr : BitVec 48), core.val ∉ s.dev.power.isolatedCores →
    s.dev.ovmAlive (homeOf (.ovm core)) = true →
    ∃ e : Device, exec (.ovmBusViolation core write addr) s = .next { s with dev := e }
      ∧ e = { s.dev with cans := e.cans, txn := { s.dev.txn with readData := e.txn.readData } }
      ∧ (write = false → tget 0#32 e.txn.readData (masterIdx (.ovm core)) = 0#32)
      ∧ (write = true → e.txn = s.dev.txn)
      ∧ reported s.dev e (homeOf (.ovm core))
          { unit := 0x60 + core.val % 4, kind := 0x64, addr := addr.toNat, master := masterCode (.ovm core)
            access := if write then 1 else 0, wide := true })

/-- A CONFIG packet of one item that its server accepts is answered OK and sets what its key names: an envelope's register,
the watchdog limit and restart of Overman, POWN of a class, or a converter's address for Deputy; a service key for Overman.
Points of it that the manual leaves open follow the model's own readings: LOG 38, LOG 39. (file 13: The CONFIG key space,
Envelopes; file 12: Policy values and telemetry.) -/
def Obligations.ConfigKeys : Prop :=
  (∀ (s : State) (q : Fin 1024) (p : Packet) (c : Instr) (key v off : Nat), oneItem s.dev q p key v →
    s.dev.serverOf q = .deputy → s.dev.envelopesHeld = false → s.dev.cross.bad = [] → s.dev.breaches key v = false →
    ((c = .envVmin q ∧ key = 1 ∧ off = 0x80 + 4 * (v / 2 ^ 16)) ∨ (c = .envVmax q ∧ key = 2 ∧ off = 0xC0 + 4 * (v / 2 ^ 16))
      ∨ (c = .envImax q ∧ key = 3 ∧ off = 0x100 + 4 * (v / 2 ^ 16)) ∨ (c = .envPceil q ∧ key = 4 ∧ off = 0x140)
      ∨ (c = .envTtrip q ∧ key = 5 ∧ off = 0x144) ∨ (c = .envDommask q ∧ key = 6 ∧ off = 0x148)) →
    ∃ e : Device, exec c s = .next { s with dev := e }
      ∧ e = { withRegs s.dev e with host := { s.dev.host with queues := e.host.queues } }
      ∧ (∀ h, (s.dev.apart = false ∨ h = queHalf q) →
          e.reg h depP off = cpWord (v % 2 ^ 16) ∧ e.reg h depP 0x24 = s.dev.reg h depP 0x24 + 1#32)
      ∧ (s.dev.apart = true → ∀ o, e.reg (queHalf q).other depP o = s.dev.reg (queHalf q).other depP o)
      ∧ wordsKept s.dev e [regKey .a depP off, regKey .b depP off, regKey .a depP 0x24, regKey .b depP 0x24]
      ∧ replied s.dev e q [statusPkt (s.dev.tb (queHalf q)) p.seq 0 0 0 0] [p.padded])
  ∧ (∀ (s : State) (q : Fin 1024) (p : Packet) (c : Instr) (key v off : Nat), oneItem s.dev q p key v →
    s.dev.serverOf q = .deputy →
    ((c = .ovmWdtime q ∧ key = 7 ∧ off = 0x4C) ∨ (c = .ovmRestart q ∧ key = 8 ∧ off = 0x50)) →
    ∃ e : Device, exec c s = .next { s with dev := e }
      ∧ e = { withRegs s.dev e with host := { s.dev.host with queues := e.host.queues } }
      ∧ (∀ h, (s.dev.apart = false ∨ h = queHalf q) → e.reg h ovmP off = w32 v)
      ∧ wordsKept s.dev e [regKey .a ovmP off, regKey .b ovmP off]
      ∧ replied s.dev e q [statusPkt (s.dev.tb (queHalf q)) p.seq 0 0 0 0] [p.padded])
  ∧ (∀ (s : State) (q : Fin 1024) (p : Packet) (v : Nat) (k : PageClass), oneItem s.dev q p 0x10 v →
    s.dev.serverOf q = .deputy → s.dev.apart = false → allClasses.find? (fun x => x.code == v % 256) = some k →
    (∀ i h, i < k.pages → s.dev.pageLocked h (k, i) = false) →
    ∃ e : Device, exec (.keyPown q) s = .next { s with dev := e }
      ∧ e = { withRegs s.dev e with host := { s.dev.host with queues := e.host.queues } }
      ∧ (∀ i h, i < k.pages → (∀ b < 5, b ≠ 3 → bit (e.reg h (k, i) 0x1C) b = v.testBit (8 + b)) ∧
          bit (e.reg h (k, i) 0x1C) 3 = bit (s.dev.reg h (k, i) 0x1C) 3
          ∧ e.reg h (k, i) 0x24 = s.dev.reg h (k, i) 0x24 + 1#32)
      ∧ (∀ w, (∀ i h, i < k.pages → w ≠ regKey h (k, i) 0x1C ∧ w ≠ regKey h (k, i) 0x24) → keeps s.dev e w)
      ∧ replied s.dev e q [statusPkt (s.dev.tb (queHalf q)) p.seq 0 0 0 0] [p.padded])
  ∧ (∀ (s : State) (q : Fin 1024) (p : Packet) (v : Nat), oneItem s.dev q p 0x11 v → s.dev.serverOf q = .deputy →
    ∃ e : Device, exec (.keyPmbusAddr q) s = .next { s with dev := e }
      ∧ e = { s.dev with host := { s.dev.host with queues := e.host.queues }
                         deputy := { s.dev.deputy with convAddr := e.deputy.convAddr } }
      ∧ e.convAddress (v % 256) = BitVec.ofNat 7 (v / 256) ∧ (∀ i, i ≠ v % 256 → e.convAddress i = s.dev.convAddress i)
      ∧ replied s.dev e q [statusPkt (s.dev.tb (queHalf q)) p.seq 0 0 0 0] [p.padded])
  ∧ (∀ (s : State) (q : Fin 1024) (p : Packet) (c : Instr) (key v : Nat) (old new : Policy), oneItem s.dev q p key v →
    s.dev.serverOf q = .overman → isControl q = true → old = s.dev.service.policy →
    ((c = .weightShort q ∧ key = 0x200 ∧ new = { old with weights := (v, old.weights.2) })
      ∨ (c = .weightInteractive q ∧ key = 0x201 ∧ new = { old with weights := (old.weights.1, v, old.weights.2.2) })
      ∨ (c = .weightBulk q ∧ key = 0x202
          ∧ new = { old with weights := (old.weights.1, old.weights.2.1, v, old.weights.2.2.2) })
      ∨ (c = .weightBackground q ∧ key = 0x203
          ∧ new = { old with weights := (old.weights.1, old.weights.2.1, old.weights.2.2.1, v) })
      ∨ (c = .quantum q ∧ key = 0x204 ∧ new = { old with quantum := v })
      ∨ (c = .batchmax q ∧ key = 0x205 ∧ new = { old with batchMax := v })
      ∨ (c = .steptok q ∧ key = 0x206 ∧ new = { old with stepTok := v })
      ∨ (c = .prefillchunk q ∧ key = 0x207 ∧ new = { old with chunk := v })
      ∨ (c = .capdelta q ∧ key = 0x208 ∧ new = { old with capDelta := v })
      ∨ (c = .teleperiod q ∧ key = 0x209 ∧ new = { old with telePeriod := v })) →
    ∃ e : Device, exec c s = .next { s with dev := e }
      ∧ e = { s.dev with host := { s.dev.host with queues := e.host.queues }, service := { s.dev.service with policy := new } }
      ∧ replied s.dev e q [statusPkt (s.dev.tb (queHalf q)) p.seq 0 0 0 0] [p.padded])

/-- A STORE with a transport is written to the bank of each half that is not in force, with no commit record, from the first
commit-grid boundary on; its completion commits both banks, puts them in force and reads 1, and a read-back that fails reads 3
with kind 0x6A. ARB_ADVANCE to a value no higher than the running image's version programs the counter of both halves, where
that is above the effective counter; a fuse that does not verify leaves a count between the two and is reported as kind 0x68.
A value no higher than the effective counter changes no fuse. Points of it that the manual leaves open follow the model's own
readings: LOG 7, LOG 34. (file 13: The settings store, The NVM page, Boot mode and loading Overman.) -/
def Obligations.StoreAndAntiRollback : Prop :=
  ((∀ (s : State) (m : Master) (v : W32), passes s.dev m nvmP 0x40 → bit v 0 = true → s.dev.nvm.current = none →
    (s.dev.crosscutUp = true ∨ s.dev.bellUp = true) →
    ∃ e : Device, exec (.store (.register m v)) s = .next { s with dev := e }
      ∧ e = { withRegs s.dev e with time := e.time, nvm := e.nvm } ∧ countsOnce s.dev e m nvmP
      ∧ e.nvm = { s.dev.nvm with
          st := .writing, current := some { force := bit v 1, home := homeOf m }, localStore := false, banks := e.nvm.banks }
      ∧ ∀ h, ((e.bank h (s.dev.idleBank h)).header = true ∧ (e.bank h (s.dev.idleBank h)).commit = false
          ∧ e.bank h (1 - s.dev.idleBank h) = s.dev.bank h (1 - s.dev.idleBank h)))
  ∧ (∀ (s : State) (q : Fin 1024) (p : Packet) (v : Nat), oneItem s.dev q p 0x100 v → s.dev.nvm.current = none →
    (s.dev.crosscutUp = true ∨ s.dev.bellUp = true) →
    ∃ e : Device, exec (.store (.packet q)) s = .next { s with dev := e }
      ∧ e = { s.dev with time := e.time, host := { s.dev.host with queues := e.host.queues }, nvm := e.nvm }
      ∧ e.nvm.current = some { force := v == 1, home := queHalf q
                               askers := [{ queue := q, seq := p.seq, padded := p.padded }] }
      ∧ e.nvm.st = .writing ∧ replied s.dev e q [] [])
  ∧ (∀ (s : State) (r : StoreReq) (ok : Bool), s.dev.nvm.current = some r → s.dev.nvm.st = .writing →
    s.dev.nvm.localStore = false → s.dev.crosscutUp = true → s.dev.nvm.next = none →
    ∃ e : Device, exec (.storeComplete ok) s = .next { s with dev := e }
      ∧ e.nvm.st = .idle ∧ e.nvm.current = none ∧ e.nvm.result = (if ok then 1#4 else 3#4)
      ∧ (ok = true → ∀ h, (tget none e.nvm.inForce h.idx = some (s.dev.idleBank h)
          ∧ e.bank h (s.dev.idleBank h) = { s.dev.bank h (s.dev.idleBank h) with commit := true }))
      ∧ (ok = false → e.nvm.inForce = s.dev.nvm.inForce ∧ e.nvm.banks = s.dev.nvm.banks
          ∧ reported s.dev e r.home { unit := 0x6B, kind := 0x6A, addr := pageBase nvmP })))
  ∧ ((∀ (s : State) (m : Master) (v : W32) (n : Nat) (verified : Bool), passes s.dev m nvmP 0x58 →
    s.dev.runningVersion = some n → fld v 6 0 ≤ n → fld v 6 0 ≤ 64 → (s.dev.apart = false ∨ s.dev.bellUp = true) →
    ∃ e : Device, exec (.arbAdvance (.register m v) verified) s = .next { s with dev := e } ∧ countsOnce s.dev e m nvmP
      ∧ e = { withRegs s.dev e with time := e.time, cans := e.cans
                                    deputy := { s.dev.deputy with fuseCount := e.deputy.fuseCount } }
      ∧ (s.dev.effectiveFuse < fld v 6 0 → verified = true → e.cans = s.dev.cans ∧ ∀ h, e.fuseOf h = fld v 6 0)
      ∧ (s.dev.effectiveFuse < fld v 6 0 → verified = false → (∀ h, s.dev.fuseOf h ≤ e.fuseOf h ∧ e.fuseOf h ≤ fld v 6 0)
          ∧ reported s.dev e .a { unit := 0x6B, kind := 0x68, addr := pageBase depP + 0x44 })
      ∧ (fld v 6 0 ≤ s.dev.effectiveFuse → e.cans = s.dev.cans ∧ ∀ h, e.fuseOf h = s.dev.fuseOf h))
  ∧ (∀ (s : State) (q : Fin 1024) (p : Packet) (v n : Nat), oneItem s.dev q p 0x101 v → s.dev.serverOf q = .overman →
    s.dev.runningVersion = some n → v ≤ n → (s.dev.apart = false ∨ s.dev.bellUp = true) →
    ∃ e : Device, exec (.arbAdvance (.packet q) true) s = .next { s with dev := e }
      ∧ e = { s.dev with host := { s.dev.host with queues := e.host.queues }
                         deputy := { s.dev.deputy with fuseCount := e.deputy.fuseCount } }
      ∧ (∀ h, e.fuseOf h = if s.dev.effectiveFuse < v then v else s.dev.fuseOf h)
      ∧ replied s.dev e q [statusPkt (s.dev.tb (queHalf q)) p.seq 0 0 0 0] [p.padded]))

/-! ## Output to the host (files 11 and 12) -/

/-- While a port's Bus Master Enable is 0 or its function is not in D0, nothing of its queues is written and nothing is
dropped: the commands that write a ring, a mailbox and an MSI-X message leave the block as it is, the message of the safe
state is kept, and what waits, no message of it unmasked, is written in its order once both conditions hold again. (R241.) -/
def Obligations.NothingPostedUnlessBusMaster : Prop :=
  (∀ (s : State) (q : Fin 1024), ((s.dev.port (queHalf q)).bme = false ∨ (s.dev.port (queHalf q)).d0 = false) →
    exec (.ringWrite q) s = .next s ∧ exec (.mailboxWrite q) s = .next s ∧ exec (.msixMessage q) s = .next s
      ∧ s.dev.flushQueue q = s.dev)
  ∧ (∀ (d : Device) (h : Half) (vec : BitVec 8), ((d.port h).bme = false ∨ (d.port h).d0 = false) → d.portReady h = true →
    (d.postHalt h vec).port h = { d.port h with haltVec := some vec })
  ∧ (∀ (s : State) (q : Fin 1024) (x : Queue) (p : OutPkt) (rest : List OutPkt), x = s.dev.queue q → x.out = p :: rest →
    x.st = .active → ((s.dev.port (queHalf q)).bme = false ∨ (s.dev.port (queHalf q)).d0 = false) →
    s.dev.portReady (queHalf q) = true → (s.dev.port (queHalf q)).haltVec = none →
    (∀ v ∈ (s.dev.port (queHalf q)).waiting, (s.dev.port (queHalf q)).masked v = true) →
    (x.rtail - x.rheadV).toNat + p.padded ≤ s.dev.ringSize q →
    ∃ e f g : Device, exec (.busMasterEnable (queHalf q) true true) s = .next { s with dev := e }
      ∧ exec (.ringWrite q) { s with dev := e } = .next { s with dev := f }
      ∧ exec (.mailboxWrite q) { s with dev := f } = .next { s with dev := g }
      ∧ (e.port (queHalf q)).posted = (s.dev.port (queHalf q)).posted
      ∧ (f.port (queHalf q)).posted = (s.dev.port (queHalf q)).posted
          ++ ringPosts (s.dev.ringBase q) (s.dev.ringSize q) x.rtail.toNat (p.bytes q x.outSeq)
      ∧ (g.port (queHalf q)).posted = (f.port (queHalf q)).posted ++ [.bytes (s.dev.mailbox q) (f.mailBytes q (x.gen + 1#32))])

/-- The oldest waiting packet of an ACTIVE queue is written to its ring at RTAIL where the ring has room and the port may
post; a first answer counts in the latency of its class, and credit that waited for room in the output half comes back; the
mailbox write that is due carries the next generation; an MSI-X message goes out once more mailbox writes than its count are
unsignalled, or waits where its vector is masked. Points of it that the manual leaves open follow the model's own readings:
LOG 53. (file 11: Response rings and credit mailboxes.) -/
def Obligations.RingMailboxAndMessages : Prop :=
  (∀ (s : State) (q : Fin 1024) (x : Queue) (p : OutPkt) (rest : List OutPkt), x = s.dev.queue q → x.out = p :: rest →
    x.st = .active → s.dev.mayPost (queHalf q) = true → (x.rtail - x.rheadV).toNat + p.padded ≤ s.dev.ringSize q →
    x.lostEvents = 0 → (∀ h r, (s.dev.canary h).held = some r → p.isCanaryEvent r.word0 = false) →
    ∃ e : Device, exec (.ringWrite q) s = .next { s with dev := e }
      ∧ e = { s.dev with host := e.host
                         service := { s.dev.service with latSum := e.service.latSum, latCount := e.service.latCount } }
      ∧ (p.first = none → e.service = s.dev.service)
      ∧ (∀ c at_, p.first = some (c, at_) →
          tget 0#64 e.service.latSum c = tget 0#64 s.dev.service.latSum c + (s.dev.tb (queHalf q) - at_)
            ∧ tget 0 e.service.latCount c = tget 0 s.dev.service.latCount c + 1)
      ∧ e.port (queHalf q) = { s.dev.port (queHalf q) with
          posted := (s.dev.port (queHalf q)).posted
            ++ ringPosts (s.dev.ringBase q) (s.dev.ringSize q) x.rtail.toNat (p.bytes q x.outSeq) }
      ∧ e.port (queHalf q).other = s.dev.port (queHalf q).other ∧ (∀ j, j ≠ q.val → e.queue j = s.dev.queue j)
      ∧ e.queue q = { x with out := rest, rtail := x.rtail + w32 p.padded, outSeq := x.outSeq + 1#32 }.withCredit (e.queue q)
      ∧ (e.queue q).mailDue = true ∧ credited x (e.queue q) [] ∧ (e.outFull q = false → (e.queue q).owed = (0, 0))
      ∧ (e.outFull q = true →
          (e.queue q).owed = x.owed ∧ (e.queue q).pktLim = x.pktLim ∧ (e.queue q).byteLim = x.byteLim))
  ∧ (∀ (s : State) (q : Fin 1024) (x : Queue), x = s.dev.queue q → x.st = .active → x.mailDue = true →
    s.dev.mayPost (queHalf q) = true →
    ∃ e : Device, exec (.mailboxWrite q) s = .next { s with dev := e } ∧ e = { s.dev with host := e.host }
      ∧ e.port (queHalf q) = { s.dev.port (queHalf q) with
          posted := (s.dev.port (queHalf q)).posted ++ [.bytes (s.dev.mailbox q) (s.dev.mailBytes q (x.gen + 1#32))] }
      ∧ (s.dev.mailBytes q (x.gen + 1#32)).length = 32
      ∧ e.port (queHalf q).other = s.dev.port (queHalf q).other ∧ (∀ j, j ≠ q.val → e.queue j = s.dev.queue j)
      ∧ e.queue q = { x with
          gen := x.gen + 1#32, mailDue := false, unsignalled := x.unsignalled + 1, firstMail := (e.queue q).firstMail })
  ∧ (∀ (s : State) (q : Fin 1024) (x : Queue) (y : Port) (v : Byte), x = s.dev.queue q → y = s.dev.port (queHalf q) →
    v = (s.dev.reg .a (queP q) 0x60).setWidth 8 → bit (s.dev.reg .a (queP q) 0x40) 24 = true →
    x.st = .active → s.dev.mayPost (queHalf q) = true → fld (s.dev.reg .a (queP q) 0x60) 15 8 < x.unsignalled →
    ∃ e : Device, exec (.msixMessage q) s = .next { s with dev := e } ∧ e = { s.dev with host := e.host }
      ∧ e.port (queHalf q) = (if y.masked v.toNat then { y with waiting := addOnce v.toNat y.waiting }
          else { y with posted := y.posted ++ [.msix v] })
      ∧ e.port (queHalf q).other = s.dev.port (queHalf q).other ∧ (∀ j, j ≠ q.val → e.queue j = s.dev.queue j)
      ∧ e.queue q = { x with unsignalled := 0 })

/-- A port's Bus Master Enable and power state change; where the port may post then, the message of the safe state that waited
goes out unless its vector is masked, and after it the waiting messages whose vectors are not. A link error counts, corrected
or not, and is reported as kind 0x55. At the end of a 100 ms window a queue that has spent more than half of it at zero credit
is saturated, and one that has spent at most a quarter is no longer. At the end of a TELEPERIOD, with Overman serving Half A
of joined halves, the telemetry registers of both show the service's figures, and PSEQ counts each of the 22 writes. Points of
it that the manual leaves open follow the model's own readings: LOG 39, LOG 52. (file 11: The two endpoints; file 12:
Sustained overload, Policy values and telemetry.) -/
def Obligations.PortsAndTelemetry : Prop :=
  (∀ (s : State) (h : Half) (enabled d0 : Bool) (x : Port) (ready : List Posted), x = s.dev.port h →
    ready = (x.waiting.filter fun v => !x.masked v).map (fun v => .msix (BitVec.ofNat 8 v)) →
    ∃ e : Device, exec (.busMasterEnable h enabled d0) s = .next { s with dev := e } ∧ e = { s.dev with host := e.host }
      ∧ ((enabled && d0 && s.dev.portReady h) = false → e.port h = { x with bme := enabled, d0 })
      ∧ ((enabled && d0 && s.dev.portReady h) = true →
          (x.haltVec = none → e.port h = { x with
            bme := true, d0 := true, waiting := x.waiting.filter x.masked, posted := x.posted ++ ready })
          ∧ (∀ v, x.haltVec = some v → x.masked v.toNat = false → e.port h = { x with
              bme := true, d0 := true, haltVec := none, waiting := x.waiting.filter x.masked
              posted := x.posted ++ [.msix v] ++ ready })
          ∧ (∀ v, x.haltVec = some v → x.masked v.toNat = true → e.port h = { x with
              bme := true, d0 := true, haltVec := none, waiting := (addOnce v.toNat x.waiting).filter x.masked
              posted := x.posted ++ ready }))
      ∧ e.port h.other = s.dev.port h.other
      ∧ ∀ q, e.queue q = s.dev.queue q)
  ∧ (∀ (s : State) (h : Half) (correctable : Bool) (x : Port), x = s.dev.port h →
    ∃ e : Device, exec (.pcieLinkErr { port := h, correctable }) s = .next { s with dev := e }
      ∧ e = { s.dev with host := e.host, cans := e.cans }
      ∧ e.port h = (if correctable then { x with correctable := x.correctable + 1 }
          else { x with uncorrectable := x.uncorrectable + 1 })
      ∧ e.port h.other = s.dev.port h.other
      ∧ (∀ q, e.queue q = s.dev.queue q) ∧ reported s.dev e h { unit := 0x6D, kind := 0x55 })
  ∧ (∀ (s : State) (q : Nat) (x : Queue) (d : Device), x = s.dev.queue q →
    d = (s.dev.advanceTo .a (nextMultiple satWindow s.dev.time.tbA)).advanceTo .b (nextMultiple satWindow s.dev.time.tbA) →
    s.dev.queueNumbers.Nodup → x.st = .active →
    ∃ e : Device, exec .saturated s = .next { s with dev := e }
      ∧ e = { s.dev with time := d.time, host := { s.dev.host with queues := e.host.queues } }
      ∧ (x.saturated = false → satWindow / 2 < x.windowSpan (d.tb (queHalf q)).toNat → (e.queue q).saturated = true)
      ∧ (x.saturated = true → x.windowSpan (d.tb (queHalf q)).toNat ≤ satWindow / 4 → (e.queue q).saturated = false))
  ∧ (∀ (s : State) (d : Device), s.dev.serving .a = true → s.dev.apart = false →
    d = s.dev.advanceGrid .a (s.dev.service.policy.telePeriod * 100000) →
    ∃ e : Device, exec .telemetryUpdate s = .next { s with dev := e }
      ∧ e = { withRegs s.dev e with time := d.time
                                    service := { s.dev.service with latSum := [], latCount := [] } }
      ∧ (∀ h, (∀ i < 22, e.reg h ovmP (0x400 + 4 * i) = (d.telemetry .a).getD i 0#32)
          ∧ e.reg h ovmP 0x24 = s.dev.reg h ovmP 0x24 + 22#32)
      ∧ ∀ k, (∀ h i, i < 22 → k ≠ regKey h ovmP (0x400 + 4 * i) ∧ k ≠ regKey h ovmP 0x24) → keeps s.dev e k)

/-! ## Canary (file 14) -/

/-- A checker's report to a Canary that holds no capture, of a kind whose class in force is DEGRADE or higher and that no unit
acts on, opens a capture with the report's words, the half's timebase and the class, counts its kind, and with HALT enters the
safe state; to one that holds a capture that has reacted as highly, and whose stored classes are consistent, it counts in
MERGE. The oldest report under way arrives as a message does. Points of it that the manual leaves open follow the model's own
readings: LOG 16. (file 14: Reports, Capture, merge and release, Fault kinds and classes.) -/
def Obligations.CanaryReports : Prop :=
  (∀ (s : State) (h : Half) (m : CanMsg) (kind c : Nat), kind = m.word0.toNat / 2 ^ 46 % 128 → s.dev.awake = true →
    s.dev.txn.held = [] →
    m.word1 = ~~~BitVec.ofNat 32 (m.word0.toNat / 2 ^ 32) → kindReserved kind = false → (s.dev.canary h).armed = false →
    kind ≠ 0x6C → kind ≠ 0x6D → kind ≠ 0x1B → c = s.dev.classOf h kind m.cond → 1 ≤ c →
    (c = 2 → 2 ≤ max (kindClass kind) (condClass kind m.cond)) →
    ((s.dev.canary h).held = none →
      ∃ e : Device, ∃ r : CaptureRec, exec (.canaryReport h (some m)) s = .next { s with dev := e }
        ∧ (e.canary h).held = some r ∧ r.word0 = m.word0 ∧ r.kind.toNat = kind ∧ r.cls = BitVec.ofNat 2 c ∧ r.reacted = r.cls
        ∧ r.time = s.dev.tb h ∧ r.master = m.master ∧ r.access = m.access ∧ r.merge = 0 ∧ r.classes = 0#4
        ∧ (((e.canary h).logAt r.logSlot).word 0 = m.word0.setWidth 32)
        ∧ tget 0#16 (e.canary h).counts kind = satInc (tget 0#16 (s.dev.canary h).counts kind)
        ∧ (c = 3 → (e.canary h).safe = true) ∧ e.time = s.dev.time)
    ∧ (∀ r : CaptureRec, (s.dev.canary h).held = some r → c ≤ r.reacted.toNat → s.dev.checkStored h (canP h) = s.dev →
      ∃ e : Device, exec (.canaryReport h (some m)) s = .next { s with dev := e }
        ∧ e = { s.dev with cans := e.cans, regul := { s.dev.regul with captures := e.regul.captures } }
        ∧ e.canary h = { s.dev.canary h with
            held := some { r with merge := satNat 65535 (r.merge + 1), classes := r.classes ||| BitVec.ofNat 4 (2 ^ c) }
            counts := (e.canary h).counts }
        ∧ tget 0#16 (e.canary h).counts kind = satInc (tget 0#16 (s.dev.canary h).counts kind)
        ∧ e.canary h.other = s.dev.canary h.other))
  ∧ (∀ (s : State) (h : Half) (m : CanMsg) (rest : List CanMsg), s.dev.awake = true → (s.dev.canary h).inFlight = m :: rest →
    exec (.canaryReport h none) s
      = exec (.canaryReport h (some m)) { s with dev := s.dev.setCanary h { s.dev.canary h with inFlight := rest } })

/-- A notice of the other half's capture opens no capture; where one is held it sets SECOND_HALF, merges the class, and the
first such notice is kept; one of class HALT puts this half in the safe state. Without the crosscut it is a frame of the bell
line. CAP.RELEASE frees a capture that has not reacted with HALT and leaves one that has, with CLASSERR bit 0. CNTCLR clears
the counters. In the safe state, once the half's bays have stopped, the domains act as HALTPOL states: those it leaves alone
stay, and CORE of Half A, if it is ON and the one domain it turns OFF, begins its power-down. With HALTPOL.ESC the half's
Deputy then starts a warm reset with cause 4. Points of it that the manual leaves open follow the model's own readings: LOG
37. (file 14: Capture, merge and release, Reactions, The CAN and CANJ pages.) -/
def Obligations.CanaryCommandsAndSafeState : Prop :=
  ((∀ (s : State) (h : Half) (n : NoticeRec) (rest : List NoticeRec) (c : Canary), s.dev.awake = true →
    s.dev.txn.held = [] → c = s.dev.canary h → c.notices = n :: rest →
    ∃ e : Device, exec (.notice h) s = .next { s with dev := e }
      ∧ (n.cls = 3#2 → (e.canary h).safe = true)
      ∧ (n.cls ≠ 3#2 → c.held = none →
          e = { s.dev with cans := e.cans, link := { s.dev.link with ends := e.link.ends } }
          ∧ (s.dev.crosscutUp = true → e.link = s.dev.link) ∧ e.canary h = { c with notices := rest }
          ∧ e.canary h.other = s.dev.canary h.other)
      ∧ (∀ r, n.cls ≠ 3#2 → c.held = some r → n.cls.toNat ≤ r.reacted.toNat →
          e = { s.dev with cans := e.cans, link := { s.dev.link with ends := e.link.ends } }
          ∧ (s.dev.crosscutUp = true → e.link = s.dev.link)
          ∧ e.canary h = { c with
              notices := rest, other := some (c.other.getD n)
              held := some { r with
                second := true, merge := satNat 65535 (r.merge + 1)
                classes := r.classes ||| BitVec.ofNat 4 (2 ^ n.cls.toNat) } }
          ∧ e.canary h.other = s.dev.canary h.other))
  ∧ (∀ (s : State) (m : Master) (h : Half) (r : CaptureRec), passes s.dev m (canP h) 0x40 →
    (s.dev.canary h).held = some r → (s.dev.canary h).armed = false →
    (r.reacted ≠ 3#2 →
      ∃ e : Device, exec (.release m h) s = .next { s with dev := e } ∧ e = { withRegs s.dev e with cans := e.cans }
        ∧ countsOnce s.dev e m (canP h)
        ∧ e.canary h = { s.dev.canary h with held := none, other := none, log := (e.canary h).log }
        ∧ bit (((e.canary h).logAt r.logSlot).word 2) 27 = true ∧ e.canary h.other = s.dev.canary h.other)
    ∧ (r.reacted = 3#2 →
      ∃ e : Device, exec (.release m h) s = .next { s with dev := e } ∧ e = withRegs s.dev e
        ∧ e.reg .a (canP h) 0x14 = s.dev.reg .a (canP h) 0x14 ||| 1#32 ∧ wordsKept s.dev e [regKey .a (canP h) 0x14]))
  ∧ (∀ (s : State) (m : Master) (h : Half), passes s.dev m (canP h) 0x60 →
    ∃ e : Device, exec (.cntclr m h) s = .next { s with dev := e } ∧ e = { withRegs s.dev e with cans := e.cans }
      ∧ e.canary h = { s.dev.canary h with counts := [] } ∧ e.canary h.other = s.dev.canary h.other
      ∧ e.reg .a (canP h) 0x60 = (s.dev.reg .a (canP h) 0x60 &&& 0xFF05#32)
      ∧ e.reg .a (canP h) 0x24 = s.dev.reg .a (canP h) 0x24 + 1#32
      ∧ wordsKept s.dev e [regKey .a (canP h) 0x60, regKey .a (canP h) 0x24]))
  ∧ ((∀ (s : State) (h : Half), (s.dev.canary h).safe = true → (s.dev.canary h).domainsDone = false →
    s.dev.baysStopped h = true → s.dev.txn.held = [] →
    ∃ e : Device, exec (.safeStateDomains h) s = .next { s with dev := e } ∧ (e.canary h).domainsDone = true
      ∧ ((∀ i < 7, s.dev.haltPol h / 4 ^ i % 4 = 0) → e = { s.dev with cans := e.cans })
      ∧ (∀ k ∈ domainParts 0, partHalf k = h → (s.dev.part k).st = .on →
          (∀ i < 7, s.dev.haltPol h / 4 ^ i % 4 = if i = 0 then 1 else 0) → (e.part k).st = .down))
  ∧ (∀ (s : State) (h : Half), (s.dev.canary h).safe = true → (s.dev.haltPol h).testBit 14 = true →
    tget false s.dev.deputy.running h.idx = true →
    ∃ e : Device, exec (.haltEscalation h) s = .next { s with dev := e }
      ∧ (∀ g : Half, bit (e.reg g pdmP 0x90) 4 = true) ∧ (∀ k, (e.slotAt k).phase = .idle)
      ∧ e.service.requests = [] ∧ (∀ g, (e.canary g).safe = false)))

/-- INJREQ of a known checker but a deputy core's, with a count and no injection armed, is copied into CANJ and armed by
Deputy; an unknown checker is refused with CLASSERR bit 1. INJCMD.ARM arms what CANJ holds, CANCEL ends an armed injection.
Points of it that the manual leaves open follow the model's own readings: LOG 22. (file 14: Injection, The CAN and CANJ
pages.) -/
def Obligations.Injection : Prop :=
  (∀ (s : State) (m : Master) (h : Half) (v : W32), passes s.dev m (canP h) 0x70 → (s.dev.canary h).armed = false →
    (checkerKnown (fld v 14 0) = true → fld v 23 16 ≠ 0 → fld v 9 0 ≠ 0x64 →
      ∃ e : Device, exec (.injreq m h v) s = .next { s with dev := e } ∧ e = { withRegs s.dev e with cans := e.cans }
        ∧ e.reg .a (canjP h) 0x40 = w32 (fld v 14 0 + (if bit v 24 then 2 ^ 24 else 0))
        ∧ e.reg .a (canjP h) 0x44 = w32 (fld v 23 16)
        ∧ e.reg .a (canjP h) 0x24 = s.dev.reg .a (canjP h) 0x24 + 1#32
        ∧ e.reg .a (canP h) 0x24 = s.dev.reg .a (canP h) 0x24 + 1#32
        ∧ wordsKept s.dev e [regKey .a (canjP h) 0x40, regKey .a (canjP h) 0x44, regKey .a (canjP h) 0x24, regKey .a (canP h) 0x24]
        ∧ e.canary h = { s.dev.canary h with
            injLeft := fld v 23 16, armed := true, injDone := false, refused := false, cancelled := false
            requester := BitVec.ofNat 8 (masterCode m) }
        ∧ e.canary h.other = s.dev.canary h.other)
    ∧ (checkerKnown (fld v 14 0) = false →
      ∃ e : Device, exec (.injreq m h v) s = .next { s with dev := e } ∧ e = { withRegs s.dev e with cans := e.cans }
        ∧ e.canary h = { s.dev.canary h with refused := true } ∧ e.canary h.other = s.dev.canary h.other
        ∧ e.reg .a (canP h) 0x14 = s.dev.reg .a (canP h) 0x14 ||| 2#32
        ∧ e.reg .a (canP h) 0x24 = s.dev.reg .a (canP h) 0x24 + 1#32
        ∧ wordsKept s.dev e [regKey .a (canP h) 0x14, regKey .a (canP h) 0x24]))
  ∧ (∀ (s : State) (m : Master) (h : Half), passes s.dev m (canjP h) 0x48 →
    ((s.dev.canary h).armed = false → checkerKnown (fld (s.dev.reg .a (canjP h) 0x40) 14 0) = true →
      fld (s.dev.reg .a (canjP h) 0x40) 9 0 ≠ 0x64 → fld (s.dev.reg .a (canjP h) 0x44) 7 0 ≠ 0 →
      ∃ e : Device, exec (.injcmdArm m h) s = .next { s with dev := e } ∧ e = { withRegs s.dev e with cans := e.cans }
        ∧ countsOnce s.dev e m (canjP h)
        ∧ e.canary h = { s.dev.canary h with
            injLeft := fld (s.dev.reg .a (canjP h) 0x44) 7 0, armed := true, injDone := false, refused := false
            cancelled := false, requester := BitVec.ofNat 8 (masterCode m) }
        ∧ e.canary h.other = s.dev.canary h.other)
    ∧ ((s.dev.canary h).armed = true →
      ∃ e : Device, exec (.injcmdCancel m h) s = .next { s with dev := e } ∧ e = { withRegs s.dev e with cans := e.cans }
        ∧ countsOnce s.dev e m (canjP h) ∧ e.canary h = { s.dev.canary h with armed := false, cancelled := true }
        ∧ e.canary h.other = s.dev.canary h.other))

/-! ## Two-wire ports (file 15) -/

/-- Write messages of TWI0: SET_PTR of a word-aligned offset moves its context's pointer; WRITE of one word, to a register the
port may write, stores it as a direct write does and reads OK; a wrong PEC leaves everything but the status, the count,
CLASSERR bit 1 and a report of kind 0x5A. Read messages of TWI0: READ and READ_AT with RDLEN 1 return the count 4 and the
register's word, low byte first; STATUS returns the status byte of the latest message. Points of it that the manual leaves
open follow the model's own readings: LOG 48. (file 15: TWI0: the target port, The register window.) -/
def Obligations.TwiTargetMessages : Prop :=
  ((∀ (s : State) (msg : TwiMsg) (c : Nat), reaches s.dev msg c → msg.count = 3#8 → msg.data.length = 3 →
    (s.dev.pecFails msg 0x01#8 = false → leNat msg.data % 4 = 0 →
      ∃ e : Device, exec (.twiSetPtr msg) s = .next { s with dev := e }
        ∧ e = { s.dev with twi := { s.dev.twi with ctxs := e.twi.ctxs, reply := [] } }
        ∧ e.twiCtx c = { s.dev.twiCtx c with
            pointer := BitVec.ofNat 24 (leNat msg.data), status := 0x0#8, busy := (s.dev.twiCtx c).busy && !msg.ready }
        ∧ ∀ j, j ≠ c → e.twiCtx j = s.dev.twiCtx j)
    ∧ (s.dev.pecFails msg 0x01#8 = true →
      ∃ e : Device, exec (.twiSetPtr msg) s = .next { s with dev := e }
        ∧ e = { withRegs s.dev e with cans := e.cans
                                      twi := { s.dev.twi with ctxs := e.twi.ctxs, reply := [], pecErrs := satInc s.dev.twi.pecErrs } }
        ∧ (e.twiCtx c).pointer = (s.dev.twiCtx c).pointer ∧ (e.twiCtx c).status = 0x4#8
        ∧ (∀ j, j ≠ c → e.twiCtx j = s.dev.twiCtx j)
        ∧ e.reg .a (twiP 0) 0x14 = s.dev.reg .a (twiP 0) 0x14 ||| 2#32 ∧ wordsKept s.dev e [regKey .a (twiP 0) 0x14]
        ∧ reported s.dev e .a { unit := 0x6C, kind := 0x5A, addr := pageBase (twiP 0) }))
  ∧ (∀ (s : State) (msg : TwiMsg) (c : Nat) (p : PageId), reaches s.dev msg c → msg.count = 4#8 → msg.data.length = 4 →
    msg.ready = true → s.dev.pecFails msg 0x11#8 = false → pageAt (s.dev.twiCtx c).pointer.toNat = some p →
    (s.dev.twiCtx c).pointer.toNat % 0x1000 = 0x18 → passes s.dev .twi p 0x18 →
    ∃ e : Device, exec (.twiWrite msg) s = .next { s with dev := e }
      ∧ e = { withRegs s.dev e with twi := { s.dev.twi with ctxs := e.twi.ctxs, reply := [] } }
      ∧ (e.twiCtx c).status = 0x0#8 ∧ (∀ j, j ≠ c → e.twiCtx j = s.dev.twiCtx j)
      ∧ (e.twiCtx c).pointer =
          (if bit (s.dev.reg .a (twiP 0) 0x40) 3 then (s.dev.twiCtx c).pointer + 4#24 else (s.dev.twiCtx c).pointer)
      ∧ ∀ h ∈ s.dev.copies .a p, e.reg h p 0x18 = w32 (leNat msg.data) &&& w32 (0xFF0000 + classErrMask p)))
  ∧ ((∀ (s : State) (msg : TwiMsg) (c : Nat) (p : PageId), reaches s.dev msg c → msg.ready = true → msg.pec = none →
    fld (s.dev.reg .a (twiP 0) 0x40) 11 8 = 1 →
    (pageAt (s.dev.twiCtx c).pointer.toNat = some p → (s.dev.twiCtx c).pointer.toNat % 0x1000 = 0x18 →
      s.dev.farPage .twi p = false →
      ∃ e : Device, exec (.twiRead msg) s = .next { s with dev := e }
        ∧ e.twi.reply = 4#8 :: leBytes 4 (s.dev.reg (copyOf .twi p) p 0x18).toNat ∧ (e.twiCtx c).status = 0x0#8
        ∧ e.regs = s.dev.regs ∧ e.cans = s.dev.cans ∧ ∀ j, j ≠ c → e.twiCtx j = s.dev.twiCtx j)
    ∧ (msg.count = 3#8 → msg.data.length = 3 → leNat msg.data % 4 = 0 → pageAt (leNat msg.data) = some p →
      leNat msg.data % 0x1000 = 0x18 → s.dev.farPage .twi p = false →
      ∃ e : Device, exec (.twiReadAt msg) s = .next { s with dev := e }
        ∧ e.twi.reply = 4#8 :: leBytes 4 (s.dev.reg (copyOf .twi p) p 0x18).toNat ∧ (e.twiCtx c).status = 0x0#8
        ∧ e.regs = s.dev.regs ∧ e.cans = s.dev.cans ∧ ∀ j, j ≠ c → e.twiCtx j = s.dev.twiCtx j))
  ∧ (∀ (s : State) (msg : TwiMsg) (c : Nat), reaches s.dev msg c → msg.ready = true → msg.pec = none →
    ∃ e : Device, exec (.twiStatus msg) s = .next { s with dev := e }
      ∧ e = { s.dev with twi := { s.dev.twi with ctxs := e.twi.ctxs, reply := [(s.dev.twiCtx c).status] } }
      ∧ e.twiCtx c = { s.dev.twiCtx c with busy := false } ∧ ∀ j, j ≠ c → e.twiCtx j = s.dev.twiCtx j))

/-- TWI0 and time: a read stretched for 1 ms sends 0xFF for its data, reads TIMEOUT and is reported as kind 0x5B, a STATUS so
stretched reads BUSY; a bus held low for 30 ms counts, with CLASSERR bit 2 and a report of kind 0x5D. A TWI frame over the
bell line brings Deputy A's message to TWI1 on Half B. Points of it that the manual leaves open follow the model's own
readings: LOG 33, LOG 48. (R350.) -/
def Obligations.TwiLimitsAndFrames : Prop :=
  (kindClass 0x5D = 1)
  ∧ (∀ (s : State) (c : Fin 4) (read : Bool), (s.dev.twiCtx c).stretch = some read → s.dev.time.slew = 0 →
    s.dev.pins.porstLow = false →
    ∃ e : Device, exec (.twiStretchLimit c) s = .next { s with dev := e }
      ∧ e = { s.dev with time := e.time, cans := e.cans
                         twi := { s.dev.twi with
                           ctxs := e.twi.ctxs, reply := e.twi.reply, stretchErrs := satInc s.dev.twi.stretchErrs } }
      ∧ e.time.tbA = s.dev.time.tbA + 100000#64 ∧ (e.twiCtx c).stretch = none ∧ (∀ j, j ≠ c.val → e.twiCtx j = s.dev.twiCtx j)
      ∧ (read = true → (e.twiCtx c).status = 0x5#8
          ∧ e.twi.reply = BitVec.ofNat 8 (4 * fld (s.dev.reg .a (twiP 0) 0x40) 11 8)
              :: List.replicate (4 * fld (s.dev.reg .a (twiP 0) 0x40) 11 8) 0xFF#8
          ∧ reported s.dev e .a { unit := 0x6C, kind := 0x5B, addr := pageBase (twiP 0) })
      ∧ (read = false → e.twi.reply = [0x1#8] ∧ (e.twiCtx c).status = (s.dev.twiCtx c).status ∧ e.cans = s.dev.cans))
  ∧ (∀ s : State, s.dev.awake = true → s.dev.time.slew = 0 →
    ∃ e : Device, exec .twiBusStuck s = .next { s with dev := e }
      ∧ e = { withRegs s.dev e with time := e.time, cans := e.cans
                                    twi := { s.dev.twi with ctxs := e.twi.ctxs, timeouts := satInc s.dev.twi.timeouts, reply := [] } }
      ∧ e.time.tbA = s.dev.time.tbA + 3000000#64
      ∧ (∀ c, (s.dev.twiCtx c).stretch ≠ none → (e.twiCtx c).stretch = none ∧ (e.twiCtx c).status = 0x9#8)
      ∧ e.reg .a (twiP 0) 0x14 = s.dev.reg .a (twiP 0) 0x14 ||| 4#32 ∧ wordsKept s.dev e [regKey .a (twiP 0) 0x14]
      ∧ reported s.dev e .a { unit := 0x6C, kind := 0x5D, addr := pageBase (twiP 0), detail := 1 })
  ∧ (∀ (s : State) (bytes : List Byte) (msg : PmMsg), (s.dev.linkEnd .b).bell = true → bytes.length = 8 → quiet s.dev →
    msg = { word0 := w32 (fieldAt bytes 0 4), word1 := w32 (fieldAt bytes 4 4), half := .a } → msg.malformed = false →
    s.dev.pmCut .deputy msg = false →
    ∃ e : Device, exec (.twiFrame .b bytes) s = .next { s with dev := e }
      ∧ e = { s.dev with twi := { s.dev.twi with depq := [msg] }, link := { s.dev.link with ends := e.link.ends } }
      ∧ (s.dev.pins.porstLow = false → e.linkEnd .b = { s.dev.linkEnd .b with lastFrame := s.dev.tb .b })
      ∧ e.linkEnd .a = s.dev.linkEnd .a)

/-- TWI1's queue registers: a write of DEPQ word 1, or of OVMQ word 1, queues the message of both words, and one to a full
queue is discarded with CLASSERR bit 1; a read of RSPD or RSPO returns the oldest response and removes it. A message of TWI1
whose command is at the front: a good answer ends it with a response of result 0 and its data behind the responses of its
source, and a read keeps the data read; a first attempt that is not acknowledged is kept for a retry. Points of it that the
manual leaves open follow the model's own readings: LOG 15, LOG 35. (file 15: TWI1: the controller port, The TWI pages.) -/
def Obligations.TwiControllerMessages : Prop :=
  ((∀ (s : State) (m : Master) (v : W32) (msg : PmMsg), passes s.dev m (twiP 1) 0x48 →
    msg = { word0 := s.dev.reg .a (twiP 1) 0x44, word1 := v, half := homeOf m } →
    (quiet s.dev → s.dev.twi.rspd.length < 16 → msg.malformed = false → s.dev.pmCut .deputy msg = false →
      ∃ e : Device, exec (.depq1 m v) s = .next { s with dev := e } ∧ countsOnce s.dev e m (twiP 1)
        ∧ e = { withRegs s.dev e with twi := { s.dev.twi with depq := [msg] } })
    ∧ (16 ≤ s.dev.twi.depq.length →
      ∃ e : Device, exec (.depq1 m v) s = .next { s with dev := e } ∧ e = withRegs s.dev e
        ∧ e.reg .a (twiP 1) 0x14 = s.dev.reg .a (twiP 1) 0x14 ||| 2#32 ∧ wordsKept s.dev e [regKey .a (twiP 1) 0x14]))
  ∧ (∀ (s : State) (m : Master) (v : W32) (msg : PmMsg), passes s.dev m (twiP 1) 0x50 → quiet s.dev →
    msg = { word0 := s.dev.reg .a (twiP 1) 0x4C, word1 := v, half := homeOf m } → s.dev.twi.rspo.length < 16 →
    msg.malformed = false → s.dev.pmCut .overman msg = false → msg.passes = true →
    ∃ e : Device, exec (.ovmq1 m v) s = .next { s with dev := e } ∧ countsOnce s.dev e m (twiP 1)
      ∧ e = { withRegs s.dev e with twi := { s.dev.twi with ovmq := [msg] } })
  ∧ (∀ (s : State) (m : Master), arrives s.dev m → s.dev.farPage m (twiP 1) = false → quiet s.dev →
    (∃ e : Device, exec (.rspd m) s = .next { s with dev := e }
      ∧ e = { s.dev with twi := { s.dev.twi with rspd := s.dev.twi.rspd.drop 1 }
                         txn := { s.dev.txn with readData := e.txn.readData } }
      ∧ tget 0#32 e.txn.readData (masterIdx m) = s.dev.twi.rspd.headD 0#32)
    ∧ (∃ e : Device, exec (.rspo m) s = .next { s with dev := e }
      ∧ e = { s.dev with twi := { s.dev.twi with rspo := s.dev.twi.rspo.drop 1 }
                         txn := { s.dev.txn with readData := e.txn.readData } }
      ∧ tget 0#32 e.txn.readData (masterIdx m) = s.dev.twi.rspo.headD 0#32)))
  ∧ (∀ (s : State) (r : BusAnswer) (c : Instr) (code : Nat) (m : PmMsg) (src : PmSource), s.dev.twi.retry = none →
    s.dev.twi.front = some (src, m) → m.code = code → s.dev.pmIdle = false →
    ((c = .pmOperation r ∧ code = 0x01) ∨ (c = .pmClearFaults r ∧ code = 0x03) ∨ (c = .pmVoutMode r ∧ code = 0x20)
      ∨ (c = .pmStatusWord r ∧ code = 0x79) ∨ (c = .pmStatusVout r ∧ code = 0x7A) ∨ (c = .pmStatusIout r ∧ code = 0x7B)
      ∨ (c = .pmStatusInput r ∧ code = 0x7C) ∨ (c = .pmStatusTemperature r ∧ code = 0x7D) ∨ (c = .pmReadVin r ∧ code = 0x88)
      ∨ (c = .pmReadVout r ∧ code = 0x8B) ∨ (c = .pmReadIout r ∧ code = 0x8C)
      ∨ (c = .pmReadTemperature1 r ∧ code = 0x8D) ∨ (c = .pmReadPout r ∧ code = 0x96)) →
    (∀ v : W16, r = .ack v → m.own = false →
      ∃ e : Device, exec c s = .next { s with dev := e }
        ∧ (src = .deputy → ∃ more, e.twi.rspd = s.dev.twi.rspd
            ++ pmResponse m .ok (if m.prot = 3 then v.toNat % 256 else v.toNat) :: more)
        ∧ (src = .overman → ∃ more, e.twi.rspo = s.dev.twi.rspo
            ++ pmResponse m .ok (if m.prot = 3 then v.toNat % 256 else v.toNat) :: more)
        ∧ (m.prot = 4 → src ≠ .poller → code ≠ 0x01 → code ≠ 0x20 →
            tget 0#16 (e.conv m.conv).reading code = v))
    ∧ ((r = .nackAddress ∨ r = .nackData) →
      ∃ e : Device, exec c s = .next { s with dev := e }
        ∧ e = { s.dev with twi := { s.dev.twi with retry := some (src, 1), losses := 0 } }))

/-- TWI1 and time: a retry comes 1 ms after the attempt before it, and a third failure ends the message; a lost arbitration
counts, with a report of kind 0x5C; bus clear frees the bus or leaves it stuck, with CLASSERR bit 2 and a report of kind 0x5D;
the poller's turn queues one STATUS_WORD for each converter it reads. Points of it that the manual leaves open follow the
model's own readings: LOG 15. (file 15: TWI1: the controller port, Other controllers, Converter supervision.) -/
def Obligations.TwiBusTime : Prop :=
  (∀ (s : State) (src : PmSource) (n : Nat) (m : PmMsg), s.dev.twi.retry = some (src, n) → s.dev.twi.front = some (src, m) →
    s.dev.pmIdle = false → s.dev.time.slew = 0 → s.dev.pins.porstLow = false →
    (n = 1 →
      ∃ e : Device, exec (.pmbusRetry .nackData) s = .next { s with dev := e }
        ∧ e = { s.dev with time := e.time, twi := { s.dev.twi with retry := some (src, 2), losses := 0 } }
        ∧ e.time.tbB = s.dev.time.tbB + 100000#64)
    ∧ (n = 2 → src = .overman →
      ∃ e : Device, exec (.pmbusRetry .nackData) s = .next { s with dev := e } ∧ e.twi.retry = none
        ∧ ∃ more, e.twi.rspo = s.dev.twi.rspo ++ pmResponse m .nackData 0 :: more))
  ∧ (∀ (s : State) (src : PmSource) (m : PmMsg), s.dev.twi.front = some (src, m) → s.dev.pmIdle = false →
    s.dev.twi.losses < 15 →
    ∃ e : Device, exec .twiArbLost s = .next { s with dev := e }
      ∧ e = { s.dev with cans := e.cans
                         twi := { s.dev.twi with losses := s.dev.twi.losses + 1, lossCount := satInc s.dev.twi.lossCount } }
      ∧ reported s.dev e .b { unit := 0x6C, kind := 0x5C, addr := pageBase (twiP 1) })
  ∧ (∀ (s : State) (r : BusClear), s.dev.power.dormant = false →
    ∃ e : Device, exec (.busClear r) s = .next { s with dev := e }
      ∧ (r = .freed → e = { s.dev with time := e.time, twi := { s.dev.twi with stuck := false } })
      ∧ (r ≠ .freed → e.twi.stuck = true
          ∧ e.reg .a (twiP 1) 0x14 = s.dev.reg .a (twiP 1) 0x14 ||| 4#32 ∧ wordsKept s.dev e [regKey .a (twiP 1) 0x14]
          ∧ reported s.dev e .b { unit := 0x6C, kind := 0x5D, addr := pageBase (twiP 1)
                                  detail := if r = .sclStuck then 2 else 3 }))
  ∧ (∀ s : State, s.dev.power.dormant = false → quiet s.dev →
    ∃ e : Device, exec .poll s = .next { s with dev := e }
      ∧ e = { s.dev with time := e.time, twi := { s.dev.twi with polls := e.twi.polls } }
      ∧ e.twi.polls.map (·.conv) = s.dev.pollList
      ∧ ∀ x ∈ e.twi.polls, x.prot = 4 ∧ x.code = 0x79 ∧ x.half = .b)
end

