-- ==== Sys2Proof/Laws/State.lean ====
section
/-! SUPPORT. What each update of the device leaves alone, group by group: true by definition, for simp. -/

namespace Sys2Proof.Machine

variable (d : Device)

/-! ### setWord -/

@[simp] theorem Device.setWord_time (k : Nat) (v : W32) : (d.setWord k v).time = d.time := rfl
@[simp] theorem Device.setWord_pins (k : Nat) (v : W32) : (d.setWord k v).pins = d.pins := rfl
@[simp] theorem Device.setWord_txn (k : Nat) (v : W32) : (d.setWord k v).txn = d.txn := rfl
@[simp] theorem Device.setWord_power (k : Nat) (v : W32) : (d.setWord k v).power = d.power := rfl
@[simp] theorem Device.setWord_regul (k : Nat) (v : W32) : (d.setWord k v).regul = d.regul := rfl
@[simp] theorem Device.setWord_govs (k : Nat) (v : W32) : (d.setWord k v).govs = d.govs := rfl
@[simp] theorem Device.setWord_therms (k : Nat) (v : W32) : (d.setWord k v).therms = d.therms := rfl
@[simp] theorem Device.setWord_compute (k : Nat) (v : W32) : (d.setWord k v).compute = d.compute := rfl
@[simp] theorem Device.setWord_host (k : Nat) (v : W32) : (d.setWord k v).host = d.host := rfl
@[simp] theorem Device.setWord_service (k : Nat) (v : W32) : (d.setWord k v).service = d.service := rfl
@[simp] theorem Device.setWord_deputy (k : Nat) (v : W32) : (d.setWord k v).deputy = d.deputy := rfl
@[simp] theorem Device.setWord_nvm (k : Nat) (v : W32) : (d.setWord k v).nvm = d.nvm := rfl
@[simp] theorem Device.setWord_cans (k : Nat) (v : W32) : (d.setWord k v).cans = d.cans := rfl
@[simp] theorem Device.setWord_twi (k : Nat) (v : W32) : (d.setWord k v).twi = d.twi := rfl
@[simp] theorem Device.setWord_link (k : Nat) (v : W32) : (d.setWord k v).link = d.link := rfl

/-! ### setPart -/

@[simp] theorem Device.setPart_cross (k : Nat) (v : Part) : (d.setPart k v).cross = d.cross := rfl
@[simp] theorem Device.setPart_time (k : Nat) (v : Part) : (d.setPart k v).time = d.time := rfl
@[simp] theorem Device.setPart_pins (k : Nat) (v : Part) : (d.setPart k v).pins = d.pins := rfl
@[simp] theorem Device.setPart_regs (k : Nat) (v : Part) : (d.setPart k v).regs = d.regs := rfl
@[simp] theorem Device.setPart_txn (k : Nat) (v : Part) : (d.setPart k v).txn = d.txn := rfl
@[simp] theorem Device.setPart_regul (k : Nat) (v : Part) : (d.setPart k v).regul = d.regul := rfl
@[simp] theorem Device.setPart_govs (k : Nat) (v : Part) : (d.setPart k v).govs = d.govs := rfl
@[simp] theorem Device.setPart_therms (k : Nat) (v : Part) : (d.setPart k v).therms = d.therms := rfl
@[simp] theorem Device.setPart_compute (k : Nat) (v : Part) : (d.setPart k v).compute = d.compute := rfl
@[simp] theorem Device.setPart_host (k : Nat) (v : Part) : (d.setPart k v).host = d.host := rfl
@[simp] theorem Device.setPart_service (k : Nat) (v : Part) : (d.setPart k v).service = d.service := rfl
@[simp] theorem Device.setPart_deputy (k : Nat) (v : Part) : (d.setPart k v).deputy = d.deputy := rfl
@[simp] theorem Device.setPart_nvm (k : Nat) (v : Part) : (d.setPart k v).nvm = d.nvm := rfl
@[simp] theorem Device.setPart_cans (k : Nat) (v : Part) : (d.setPart k v).cans = d.cans := rfl
@[simp] theorem Device.setPart_twi (k : Nat) (v : Part) : (d.setPart k v).twi = d.twi := rfl
@[simp] theorem Device.setPart_link (k : Nat) (v : Part) : (d.setPart k v).link = d.link := rfl

/-! ### setCluster -/

@[simp] theorem Device.setCluster_cross (k : Nat) (v : Cluster) : (d.setCluster k v).cross = d.cross := rfl
@[simp] theorem Device.setCluster_time (k : Nat) (v : Cluster) : (d.setCluster k v).time = d.time := rfl
@[simp] theorem Device.setCluster_pins (k : Nat) (v : Cluster) : (d.setCluster k v).pins = d.pins := rfl
@[simp] theorem Device.setCluster_regs (k : Nat) (v : Cluster) : (d.setCluster k v).regs = d.regs := rfl
@[simp] theorem Device.setCluster_txn (k : Nat) (v : Cluster) : (d.setCluster k v).txn = d.txn := rfl
@[simp] theorem Device.setCluster_power (k : Nat) (v : Cluster) : (d.setCluster k v).power = d.power := rfl
@[simp] theorem Device.setCluster_govs (k : Nat) (v : Cluster) : (d.setCluster k v).govs = d.govs := rfl
@[simp] theorem Device.setCluster_therms (k : Nat) (v : Cluster) : (d.setCluster k v).therms = d.therms := rfl
@[simp] theorem Device.setCluster_compute (k : Nat) (v : Cluster) : (d.setCluster k v).compute = d.compute := rfl
@[simp] theorem Device.setCluster_host (k : Nat) (v : Cluster) : (d.setCluster k v).host = d.host := rfl
@[simp] theorem Device.setCluster_service (k : Nat) (v : Cluster) : (d.setCluster k v).service = d.service := rfl
@[simp] theorem Device.setCluster_deputy (k : Nat) (v : Cluster) : (d.setCluster k v).deputy = d.deputy := rfl
@[simp] theorem Device.setCluster_nvm (k : Nat) (v : Cluster) : (d.setCluster k v).nvm = d.nvm := rfl
@[simp] theorem Device.setCluster_cans (k : Nat) (v : Cluster) : (d.setCluster k v).cans = d.cans := rfl
@[simp] theorem Device.setCluster_twi (k : Nat) (v : Cluster) : (d.setCluster k v).twi = d.twi := rfl
@[simp] theorem Device.setCluster_link (k : Nat) (v : Cluster) : (d.setCluster k v).link = d.link := rfl

/-! ### setEngine -/

@[simp] theorem Device.setEngine_cross (k : Nat) (v : Engine) : (d.setEngine k v).cross = d.cross := rfl
@[simp] theorem Device.setEngine_time (k : Nat) (v : Engine) : (d.setEngine k v).time = d.time := rfl
@[simp] theorem Device.setEngine_pins (k : Nat) (v : Engine) : (d.setEngine k v).pins = d.pins := rfl
@[simp] theorem Device.setEngine_regs (k : Nat) (v : Engine) : (d.setEngine k v).regs = d.regs := rfl
@[simp] theorem Device.setEngine_txn (k : Nat) (v : Engine) : (d.setEngine k v).txn = d.txn := rfl
@[simp] theorem Device.setEngine_power (k : Nat) (v : Engine) : (d.setEngine k v).power = d.power := rfl
@[simp] theorem Device.setEngine_govs (k : Nat) (v : Engine) : (d.setEngine k v).govs = d.govs := rfl
@[simp] theorem Device.setEngine_therms (k : Nat) (v : Engine) : (d.setEngine k v).therms = d.therms := rfl
@[simp] theorem Device.setEngine_compute (k : Nat) (v : Engine) : (d.setEngine k v).compute = d.compute := rfl
@[simp] theorem Device.setEngine_host (k : Nat) (v : Engine) : (d.setEngine k v).host = d.host := rfl
@[simp] theorem Device.setEngine_service (k : Nat) (v : Engine) : (d.setEngine k v).service = d.service := rfl
@[simp] theorem Device.setEngine_deputy (k : Nat) (v : Engine) : (d.setEngine k v).deputy = d.deputy := rfl
@[simp] theorem Device.setEngine_nvm (k : Nat) (v : Engine) : (d.setEngine k v).nvm = d.nvm := rfl
@[simp] theorem Device.setEngine_cans (k : Nat) (v : Engine) : (d.setEngine k v).cans = d.cans := rfl
@[simp] theorem Device.setEngine_twi (k : Nat) (v : Engine) : (d.setEngine k v).twi = d.twi := rfl
@[simp] theorem Device.setEngine_link (k : Nat) (v : Engine) : (d.setEngine k v).link = d.link := rfl

/-! ### setCapture -/

@[simp] theorem Device.setCapture_cross (k : Half) (v : Capture) : (d.setCapture k v).cross = d.cross := rfl
@[simp] theorem Device.setCapture_time (k : Half) (v : Capture) : (d.setCapture k v).time = d.time := rfl
@[simp] theorem Device.setCapture_pins (k : Half) (v : Capture) : (d.setCapture k v).pins = d.pins := rfl
@[simp] theorem Device.setCapture_regs (k : Half) (v : Capture) : (d.setCapture k v).regs = d.regs := rfl
@[simp] theorem Device.setCapture_txn (k : Half) (v : Capture) : (d.setCapture k v).txn = d.txn := rfl
@[simp] theorem Device.setCapture_power (k : Half) (v : Capture) : (d.setCapture k v).power = d.power := rfl
@[simp] theorem Device.setCapture_govs (k : Half) (v : Capture) : (d.setCapture k v).govs = d.govs := rfl
@[simp] theorem Device.setCapture_therms (k : Half) (v : Capture) : (d.setCapture k v).therms = d.therms := rfl
@[simp] theorem Device.setCapture_compute (k : Half) (v : Capture) : (d.setCapture k v).compute = d.compute := rfl
@[simp] theorem Device.setCapture_host (k : Half) (v : Capture) : (d.setCapture k v).host = d.host := rfl
@[simp] theorem Device.setCapture_service (k : Half) (v : Capture) : (d.setCapture k v).service = d.service := rfl
@[simp] theorem Device.setCapture_deputy (k : Half) (v : Capture) : (d.setCapture k v).deputy = d.deputy := rfl
@[simp] theorem Device.setCapture_nvm (k : Half) (v : Capture) : (d.setCapture k v).nvm = d.nvm := rfl
@[simp] theorem Device.setCapture_cans (k : Half) (v : Capture) : (d.setCapture k v).cans = d.cans := rfl
@[simp] theorem Device.setCapture_twi (k : Half) (v : Capture) : (d.setCapture k v).twi = d.twi := rfl
@[simp] theorem Device.setCapture_link (k : Half) (v : Capture) : (d.setCapture k v).link = d.link := rfl

/-! ### setRail -/

@[simp] theorem Device.setRail_cross (k : Nat) (v : Rail) : (d.setRail k v).cross = d.cross := rfl
@[simp] theorem Device.setRail_time (k : Nat) (v : Rail) : (d.setRail k v).time = d.time := rfl
@[simp] theorem Device.setRail_pins (k : Nat) (v : Rail) : (d.setRail k v).pins = d.pins := rfl
@[simp] theorem Device.setRail_regs (k : Nat) (v : Rail) : (d.setRail k v).regs = d.regs := rfl
@[simp] theorem Device.setRail_txn (k : Nat) (v : Rail) : (d.setRail k v).txn = d.txn := rfl
@[simp] theorem Device.setRail_power (k : Nat) (v : Rail) : (d.setRail k v).power = d.power := rfl
@[simp] theorem Device.setRail_govs (k : Nat) (v : Rail) : (d.setRail k v).govs = d.govs := rfl
@[simp] theorem Device.setRail_therms (k : Nat) (v : Rail) : (d.setRail k v).therms = d.therms := rfl
@[simp] theorem Device.setRail_compute (k : Nat) (v : Rail) : (d.setRail k v).compute = d.compute := rfl
@[simp] theorem Device.setRail_host (k : Nat) (v : Rail) : (d.setRail k v).host = d.host := rfl
@[simp] theorem Device.setRail_service (k : Nat) (v : Rail) : (d.setRail k v).service = d.service := rfl
@[simp] theorem Device.setRail_deputy (k : Nat) (v : Rail) : (d.setRail k v).deputy = d.deputy := rfl
@[simp] theorem Device.setRail_nvm (k : Nat) (v : Rail) : (d.setRail k v).nvm = d.nvm := rfl
@[simp] theorem Device.setRail_cans (k : Nat) (v : Rail) : (d.setRail k v).cans = d.cans := rfl
@[simp] theorem Device.setRail_twi (k : Nat) (v : Rail) : (d.setRail k v).twi = d.twi := rfl
@[simp] theorem Device.setRail_link (k : Nat) (v : Rail) : (d.setRail k v).link = d.link := rfl

/-! ### setSync -/

@[simp] theorem Device.setSync_cross (k : Nat) (v : SyncGroup) : (d.setSync k v).cross = d.cross := rfl
@[simp] theorem Device.setSync_time (k : Nat) (v : SyncGroup) : (d.setSync k v).time = d.time := rfl
@[simp] theorem Device.setSync_pins (k : Nat) (v : SyncGroup) : (d.setSync k v).pins = d.pins := rfl
@[simp] theorem Device.setSync_regs (k : Nat) (v : SyncGroup) : (d.setSync k v).regs = d.regs := rfl
@[simp] theorem Device.setSync_txn (k : Nat) (v : SyncGroup) : (d.setSync k v).txn = d.txn := rfl
@[simp] theorem Device.setSync_power (k : Nat) (v : SyncGroup) : (d.setSync k v).power = d.power := rfl
@[simp] theorem Device.setSync_govs (k : Nat) (v : SyncGroup) : (d.setSync k v).govs = d.govs := rfl
@[simp] theorem Device.setSync_therms (k : Nat) (v : SyncGroup) : (d.setSync k v).therms = d.therms := rfl
@[simp] theorem Device.setSync_compute (k : Nat) (v : SyncGroup) : (d.setSync k v).compute = d.compute := rfl
@[simp] theorem Device.setSync_host (k : Nat) (v : SyncGroup) : (d.setSync k v).host = d.host := rfl
@[simp] theorem Device.setSync_service (k : Nat) (v : SyncGroup) : (d.setSync k v).service = d.service := rfl
@[simp] theorem Device.setSync_deputy (k : Nat) (v : SyncGroup) : (d.setSync k v).deputy = d.deputy := rfl
@[simp] theorem Device.setSync_nvm (k : Nat) (v : SyncGroup) : (d.setSync k v).nvm = d.nvm := rfl
@[simp] theorem Device.setSync_cans (k : Nat) (v : SyncGroup) : (d.setSync k v).cans = d.cans := rfl
@[simp] theorem Device.setSync_twi (k : Nat) (v : SyncGroup) : (d.setSync k v).twi = d.twi := rfl
@[simp] theorem Device.setSync_link (k : Nat) (v : SyncGroup) : (d.setSync k v).link = d.link := rfl

/-! ### setGov -/

@[simp] theorem Device.setGov_cross (k : Half) (v : Governor) : (d.setGov k v).cross = d.cross := rfl
@[simp] theorem Device.setGov_time (k : Half) (v : Governor) : (d.setGov k v).time = d.time := rfl
@[simp] theorem Device.setGov_pins (k : Half) (v : Governor) : (d.setGov k v).pins = d.pins := rfl
@[simp] theorem Device.setGov_regs (k : Half) (v : Governor) : (d.setGov k v).regs = d.regs := rfl
@[simp] theorem Device.setGov_txn (k : Half) (v : Governor) : (d.setGov k v).txn = d.txn := rfl
@[simp] theorem Device.setGov_power (k : Half) (v : Governor) : (d.setGov k v).power = d.power := rfl
@[simp] theorem Device.setGov_regul (k : Half) (v : Governor) : (d.setGov k v).regul = d.regul := rfl
@[simp] theorem Device.setGov_therms (k : Half) (v : Governor) : (d.setGov k v).therms = d.therms := rfl
@[simp] theorem Device.setGov_compute (k : Half) (v : Governor) : (d.setGov k v).compute = d.compute := rfl
@[simp] theorem Device.setGov_host (k : Half) (v : Governor) : (d.setGov k v).host = d.host := rfl
@[simp] theorem Device.setGov_service (k : Half) (v : Governor) : (d.setGov k v).service = d.service := rfl
@[simp] theorem Device.setGov_deputy (k : Half) (v : Governor) : (d.setGov k v).deputy = d.deputy := rfl
@[simp] theorem Device.setGov_nvm (k : Half) (v : Governor) : (d.setGov k v).nvm = d.nvm := rfl
@[simp] theorem Device.setGov_cans (k : Half) (v : Governor) : (d.setGov k v).cans = d.cans := rfl
@[simp] theorem Device.setGov_twi (k : Half) (v : Governor) : (d.setGov k v).twi = d.twi := rfl
@[simp] theorem Device.setGov_link (k : Half) (v : Governor) : (d.setGov k v).link = d.link := rfl

/-! ### setTherm -/

@[simp] theorem Device.setTherm_cross (k : Half) (v : Thermal) : (d.setTherm k v).cross = d.cross := rfl
@[simp] theorem Device.setTherm_time (k : Half) (v : Thermal) : (d.setTherm k v).time = d.time := rfl
@[simp] theorem Device.setTherm_pins (k : Half) (v : Thermal) : (d.setTherm k v).pins = d.pins := rfl
@[simp] theorem Device.setTherm_regs (k : Half) (v : Thermal) : (d.setTherm k v).regs = d.regs := rfl
@[simp] theorem Device.setTherm_txn (k : Half) (v : Thermal) : (d.setTherm k v).txn = d.txn := rfl
@[simp] theorem Device.setTherm_power (k : Half) (v : Thermal) : (d.setTherm k v).power = d.power := rfl
@[simp] theorem Device.setTherm_regul (k : Half) (v : Thermal) : (d.setTherm k v).regul = d.regul := rfl
@[simp] theorem Device.setTherm_govs (k : Half) (v : Thermal) : (d.setTherm k v).govs = d.govs := rfl
@[simp] theorem Device.setTherm_compute (k : Half) (v : Thermal) : (d.setTherm k v).compute = d.compute := rfl
@[simp] theorem Device.setTherm_host (k : Half) (v : Thermal) : (d.setTherm k v).host = d.host := rfl
@[simp] theorem Device.setTherm_service (k : Half) (v : Thermal) : (d.setTherm k v).service = d.service := rfl
@[simp] theorem Device.setTherm_deputy (k : Half) (v : Thermal) : (d.setTherm k v).deputy = d.deputy := rfl
@[simp] theorem Device.setTherm_nvm (k : Half) (v : Thermal) : (d.setTherm k v).nvm = d.nvm := rfl
@[simp] theorem Device.setTherm_cans (k : Half) (v : Thermal) : (d.setTherm k v).cans = d.cans := rfl
@[simp] theorem Device.setTherm_twi (k : Half) (v : Thermal) : (d.setTherm k v).twi = d.twi := rfl
@[simp] theorem Device.setTherm_link (k : Half) (v : Thermal) : (d.setTherm k v).link = d.link := rfl

/-! ### setBay -/

@[simp] theorem Device.setBay_cross (k : Nat) (v : Bay) : (d.setBay k v).cross = d.cross := rfl
@[simp] theorem Device.setBay_time (k : Nat) (v : Bay) : (d.setBay k v).time = d.time := rfl
@[simp] theorem Device.setBay_pins (k : Nat) (v : Bay) : (d.setBay k v).pins = d.pins := rfl
@[simp] theorem Device.setBay_regs (k : Nat) (v : Bay) : (d.setBay k v).regs = d.regs := rfl
@[simp] theorem Device.setBay_txn (k : Nat) (v : Bay) : (d.setBay k v).txn = d.txn := rfl
@[simp] theorem Device.setBay_power (k : Nat) (v : Bay) : (d.setBay k v).power = d.power := rfl
@[simp] theorem Device.setBay_regul (k : Nat) (v : Bay) : (d.setBay k v).regul = d.regul := rfl
@[simp] theorem Device.setBay_govs (k : Nat) (v : Bay) : (d.setBay k v).govs = d.govs := rfl
@[simp] theorem Device.setBay_therms (k : Nat) (v : Bay) : (d.setBay k v).therms = d.therms := rfl
@[simp] theorem Device.setBay_host (k : Nat) (v : Bay) : (d.setBay k v).host = d.host := rfl
@[simp] theorem Device.setBay_service (k : Nat) (v : Bay) : (d.setBay k v).service = d.service := rfl
@[simp] theorem Device.setBay_deputy (k : Nat) (v : Bay) : (d.setBay k v).deputy = d.deputy := rfl
@[simp] theorem Device.setBay_nvm (k : Nat) (v : Bay) : (d.setBay k v).nvm = d.nvm := rfl
@[simp] theorem Device.setBay_cans (k : Nat) (v : Bay) : (d.setBay k v).cans = d.cans := rfl
@[simp] theorem Device.setBay_twi (k : Nat) (v : Bay) : (d.setBay k v).twi = d.twi := rfl
@[simp] theorem Device.setBay_link (k : Nat) (v : Bay) : (d.setBay k v).link = d.link := rfl

/-! ### setLode -/

@[simp] theorem Device.setLode_cross (k : Nat) (v : Lode) : (d.setLode k v).cross = d.cross := rfl
@[simp] theorem Device.setLode_time (k : Nat) (v : Lode) : (d.setLode k v).time = d.time := rfl
@[simp] theorem Device.setLode_pins (k : Nat) (v : Lode) : (d.setLode k v).pins = d.pins := rfl
@[simp] theorem Device.setLode_regs (k : Nat) (v : Lode) : (d.setLode k v).regs = d.regs := rfl
@[simp] theorem Device.setLode_txn (k : Nat) (v : Lode) : (d.setLode k v).txn = d.txn := rfl
@[simp] theorem Device.setLode_power (k : Nat) (v : Lode) : (d.setLode k v).power = d.power := rfl
@[simp] theorem Device.setLode_regul (k : Nat) (v : Lode) : (d.setLode k v).regul = d.regul := rfl
@[simp] theorem Device.setLode_govs (k : Nat) (v : Lode) : (d.setLode k v).govs = d.govs := rfl
@[simp] theorem Device.setLode_therms (k : Nat) (v : Lode) : (d.setLode k v).therms = d.therms := rfl
@[simp] theorem Device.setLode_host (k : Nat) (v : Lode) : (d.setLode k v).host = d.host := rfl
@[simp] theorem Device.setLode_service (k : Nat) (v : Lode) : (d.setLode k v).service = d.service := rfl
@[simp] theorem Device.setLode_deputy (k : Nat) (v : Lode) : (d.setLode k v).deputy = d.deputy := rfl
@[simp] theorem Device.setLode_nvm (k : Nat) (v : Lode) : (d.setLode k v).nvm = d.nvm := rfl
@[simp] theorem Device.setLode_cans (k : Nat) (v : Lode) : (d.setLode k v).cans = d.cans := rfl
@[simp] theorem Device.setLode_twi (k : Nat) (v : Lode) : (d.setLode k v).twi = d.twi := rfl
@[simp] theorem Device.setLode_link (k : Nat) (v : Lode) : (d.setLode k v).link = d.link := rfl

/-! ### setMover -/

@[simp] theorem Device.setMover_cross (k : Nat) (v : Mover) : (d.setMover k v).cross = d.cross := rfl
@[simp] theorem Device.setMover_time (k : Nat) (v : Mover) : (d.setMover k v).time = d.time := rfl
@[simp] theorem Device.setMover_pins (k : Nat) (v : Mover) : (d.setMover k v).pins = d.pins := rfl
@[simp] theorem Device.setMover_regs (k : Nat) (v : Mover) : (d.setMover k v).regs = d.regs := rfl
@[simp] theorem Device.setMover_txn (k : Nat) (v : Mover) : (d.setMover k v).txn = d.txn := rfl
@[simp] theorem Device.setMover_power (k : Nat) (v : Mover) : (d.setMover k v).power = d.power := rfl
@[simp] theorem Device.setMover_regul (k : Nat) (v : Mover) : (d.setMover k v).regul = d.regul := rfl
@[simp] theorem Device.setMover_govs (k : Nat) (v : Mover) : (d.setMover k v).govs = d.govs := rfl
@[simp] theorem Device.setMover_therms (k : Nat) (v : Mover) : (d.setMover k v).therms = d.therms := rfl
@[simp] theorem Device.setMover_host (k : Nat) (v : Mover) : (d.setMover k v).host = d.host := rfl
@[simp] theorem Device.setMover_service (k : Nat) (v : Mover) : (d.setMover k v).service = d.service := rfl
@[simp] theorem Device.setMover_deputy (k : Nat) (v : Mover) : (d.setMover k v).deputy = d.deputy := rfl
@[simp] theorem Device.setMover_nvm (k : Nat) (v : Mover) : (d.setMover k v).nvm = d.nvm := rfl
@[simp] theorem Device.setMover_cans (k : Nat) (v : Mover) : (d.setMover k v).cans = d.cans := rfl
@[simp] theorem Device.setMover_twi (k : Nat) (v : Mover) : (d.setMover k v).twi = d.twi := rfl
@[simp] theorem Device.setMover_link (k : Nat) (v : Mover) : (d.setMover k v).link = d.link := rfl

/-! ### setMem -/

@[simp] theorem Device.setMem_cross (k : Nat) (v : MemCounts) : (d.setMem k v).cross = d.cross := rfl
@[simp] theorem Device.setMem_time (k : Nat) (v : MemCounts) : (d.setMem k v).time = d.time := rfl
@[simp] theorem Device.setMem_pins (k : Nat) (v : MemCounts) : (d.setMem k v).pins = d.pins := rfl
@[simp] theorem Device.setMem_regs (k : Nat) (v : MemCounts) : (d.setMem k v).regs = d.regs := rfl
@[simp] theorem Device.setMem_txn (k : Nat) (v : MemCounts) : (d.setMem k v).txn = d.txn := rfl
@[simp] theorem Device.setMem_power (k : Nat) (v : MemCounts) : (d.setMem k v).power = d.power := rfl
@[simp] theorem Device.setMem_regul (k : Nat) (v : MemCounts) : (d.setMem k v).regul = d.regul := rfl
@[simp] theorem Device.setMem_govs (k : Nat) (v : MemCounts) : (d.setMem k v).govs = d.govs := rfl
@[simp] theorem Device.setMem_therms (k : Nat) (v : MemCounts) : (d.setMem k v).therms = d.therms := rfl
@[simp] theorem Device.setMem_host (k : Nat) (v : MemCounts) : (d.setMem k v).host = d.host := rfl
@[simp] theorem Device.setMem_service (k : Nat) (v : MemCounts) : (d.setMem k v).service = d.service := rfl
@[simp] theorem Device.setMem_deputy (k : Nat) (v : MemCounts) : (d.setMem k v).deputy = d.deputy := rfl
@[simp] theorem Device.setMem_nvm (k : Nat) (v : MemCounts) : (d.setMem k v).nvm = d.nvm := rfl
@[simp] theorem Device.setMem_cans (k : Nat) (v : MemCounts) : (d.setMem k v).cans = d.cans := rfl
@[simp] theorem Device.setMem_twi (k : Nat) (v : MemCounts) : (d.setMem k v).twi = d.twi := rfl
@[simp] theorem Device.setMem_link (k : Nat) (v : MemCounts) : (d.setMem k v).link = d.link := rfl

/-! ### setQueue -/

@[simp] theorem Device.setQueue_cross (k : Nat) (v : Queue) : (d.setQueue k v).cross = d.cross := rfl
@[simp] theorem Device.setQueue_time (k : Nat) (v : Queue) : (d.setQueue k v).time = d.time := rfl
@[simp] theorem Device.setQueue_pins (k : Nat) (v : Queue) : (d.setQueue k v).pins = d.pins := rfl
@[simp] theorem Device.setQueue_regs (k : Nat) (v : Queue) : (d.setQueue k v).regs = d.regs := rfl
@[simp] theorem Device.setQueue_txn (k : Nat) (v : Queue) : (d.setQueue k v).txn = d.txn := rfl
@[simp] theorem Device.setQueue_power (k : Nat) (v : Queue) : (d.setQueue k v).power = d.power := rfl
@[simp] theorem Device.setQueue_regul (k : Nat) (v : Queue) : (d.setQueue k v).regul = d.regul := rfl
@[simp] theorem Device.setQueue_govs (k : Nat) (v : Queue) : (d.setQueue k v).govs = d.govs := rfl
@[simp] theorem Device.setQueue_therms (k : Nat) (v : Queue) : (d.setQueue k v).therms = d.therms := rfl
@[simp] theorem Device.setQueue_compute (k : Nat) (v : Queue) : (d.setQueue k v).compute = d.compute := rfl
@[simp] theorem Device.setQueue_service (k : Nat) (v : Queue) : (d.setQueue k v).service = d.service := rfl
@[simp] theorem Device.setQueue_deputy (k : Nat) (v : Queue) : (d.setQueue k v).deputy = d.deputy := rfl
@[simp] theorem Device.setQueue_nvm (k : Nat) (v : Queue) : (d.setQueue k v).nvm = d.nvm := rfl
@[simp] theorem Device.setQueue_cans (k : Nat) (v : Queue) : (d.setQueue k v).cans = d.cans := rfl
@[simp] theorem Device.setQueue_twi (k : Nat) (v : Queue) : (d.setQueue k v).twi = d.twi := rfl
@[simp] theorem Device.setQueue_link (k : Nat) (v : Queue) : (d.setQueue k v).link = d.link := rfl

/-! ### setPort -/

@[simp] theorem Device.setPort_cross (k : Half) (v : Port) : (d.setPort k v).cross = d.cross := rfl
@[simp] theorem Device.setPort_time (k : Half) (v : Port) : (d.setPort k v).time = d.time := rfl
@[simp] theorem Device.setPort_pins (k : Half) (v : Port) : (d.setPort k v).pins = d.pins := rfl
@[simp] theorem Device.setPort_regs (k : Half) (v : Port) : (d.setPort k v).regs = d.regs := rfl
@[simp] theorem Device.setPort_txn (k : Half) (v : Port) : (d.setPort k v).txn = d.txn := rfl
@[simp] theorem Device.setPort_power (k : Half) (v : Port) : (d.setPort k v).power = d.power := rfl
@[simp] theorem Device.setPort_regul (k : Half) (v : Port) : (d.setPort k v).regul = d.regul := rfl
@[simp] theorem Device.setPort_govs (k : Half) (v : Port) : (d.setPort k v).govs = d.govs := rfl
@[simp] theorem Device.setPort_therms (k : Half) (v : Port) : (d.setPort k v).therms = d.therms := rfl
@[simp] theorem Device.setPort_compute (k : Half) (v : Port) : (d.setPort k v).compute = d.compute := rfl
@[simp] theorem Device.setPort_service (k : Half) (v : Port) : (d.setPort k v).service = d.service := rfl
@[simp] theorem Device.setPort_deputy (k : Half) (v : Port) : (d.setPort k v).deputy = d.deputy := rfl
@[simp] theorem Device.setPort_nvm (k : Half) (v : Port) : (d.setPort k v).nvm = d.nvm := rfl
@[simp] theorem Device.setPort_cans (k : Half) (v : Port) : (d.setPort k v).cans = d.cans := rfl
@[simp] theorem Device.setPort_twi (k : Half) (v : Port) : (d.setPort k v).twi = d.twi := rfl
@[simp] theorem Device.setPort_link (k : Half) (v : Port) : (d.setPort k v).link = d.link := rfl

/-! ### setOvman -/

@[simp] theorem Device.setOvman_cross (k : Half) (v : Overman) : (d.setOvman k v).cross = d.cross := rfl
@[simp] theorem Device.setOvman_time (k : Half) (v : Overman) : (d.setOvman k v).time = d.time := rfl
@[simp] theorem Device.setOvman_pins (k : Half) (v : Overman) : (d.setOvman k v).pins = d.pins := rfl
@[simp] theorem Device.setOvman_regs (k : Half) (v : Overman) : (d.setOvman k v).regs = d.regs := rfl
@[simp] theorem Device.setOvman_txn (k : Half) (v : Overman) : (d.setOvman k v).txn = d.txn := rfl
@[simp] theorem Device.setOvman_power (k : Half) (v : Overman) : (d.setOvman k v).power = d.power := rfl
@[simp] theorem Device.setOvman_regul (k : Half) (v : Overman) : (d.setOvman k v).regul = d.regul := rfl
@[simp] theorem Device.setOvman_govs (k : Half) (v : Overman) : (d.setOvman k v).govs = d.govs := rfl
@[simp] theorem Device.setOvman_therms (k : Half) (v : Overman) : (d.setOvman k v).therms = d.therms := rfl
@[simp] theorem Device.setOvman_compute (k : Half) (v : Overman) : (d.setOvman k v).compute = d.compute := rfl
@[simp] theorem Device.setOvman_host (k : Half) (v : Overman) : (d.setOvman k v).host = d.host := rfl
@[simp] theorem Device.setOvman_service (k : Half) (v : Overman) : (d.setOvman k v).service = d.service := rfl
@[simp] theorem Device.setOvman_nvm (k : Half) (v : Overman) : (d.setOvman k v).nvm = d.nvm := rfl
@[simp] theorem Device.setOvman_cans (k : Half) (v : Overman) : (d.setOvman k v).cans = d.cans := rfl
@[simp] theorem Device.setOvman_twi (k : Half) (v : Overman) : (d.setOvman k v).twi = d.twi := rfl
@[simp] theorem Device.setOvman_link (k : Half) (v : Overman) : (d.setOvman k v).link = d.link := rfl

/-! ### setCanary -/

@[simp] theorem Device.setCanary_cross (k : Half) (v : Canary) : (d.setCanary k v).cross = d.cross := rfl
@[simp] theorem Device.setCanary_time (k : Half) (v : Canary) : (d.setCanary k v).time = d.time := rfl
@[simp] theorem Device.setCanary_pins (k : Half) (v : Canary) : (d.setCanary k v).pins = d.pins := rfl
@[simp] theorem Device.setCanary_regs (k : Half) (v : Canary) : (d.setCanary k v).regs = d.regs := rfl
@[simp] theorem Device.setCanary_txn (k : Half) (v : Canary) : (d.setCanary k v).txn = d.txn := rfl
@[simp] theorem Device.setCanary_power (k : Half) (v : Canary) : (d.setCanary k v).power = d.power := rfl
@[simp] theorem Device.setCanary_regul (k : Half) (v : Canary) : (d.setCanary k v).regul = d.regul := rfl
@[simp] theorem Device.setCanary_govs (k : Half) (v : Canary) : (d.setCanary k v).govs = d.govs := rfl
@[simp] theorem Device.setCanary_therms (k : Half) (v : Canary) : (d.setCanary k v).therms = d.therms := rfl
@[simp] theorem Device.setCanary_compute (k : Half) (v : Canary) : (d.setCanary k v).compute = d.compute := rfl
@[simp] theorem Device.setCanary_host (k : Half) (v : Canary) : (d.setCanary k v).host = d.host := rfl
@[simp] theorem Device.setCanary_service (k : Half) (v : Canary) : (d.setCanary k v).service = d.service := rfl
@[simp] theorem Device.setCanary_deputy (k : Half) (v : Canary) : (d.setCanary k v).deputy = d.deputy := rfl
@[simp] theorem Device.setCanary_nvm (k : Half) (v : Canary) : (d.setCanary k v).nvm = d.nvm := rfl
@[simp] theorem Device.setCanary_twi (k : Half) (v : Canary) : (d.setCanary k v).twi = d.twi := rfl
@[simp] theorem Device.setCanary_link (k : Half) (v : Canary) : (d.setCanary k v).link = d.link := rfl

/-! ### setLinkEnd -/

@[simp] theorem Device.setLinkEnd_cross (k : Half) (v : LinkEnd) : (d.setLinkEnd k v).cross = d.cross := rfl
@[simp] theorem Device.setLinkEnd_time (k : Half) (v : LinkEnd) : (d.setLinkEnd k v).time = d.time := rfl
@[simp] theorem Device.setLinkEnd_pins (k : Half) (v : LinkEnd) : (d.setLinkEnd k v).pins = d.pins := rfl
@[simp] theorem Device.setLinkEnd_regs (k : Half) (v : LinkEnd) : (d.setLinkEnd k v).regs = d.regs := rfl
@[simp] theorem Device.setLinkEnd_txn (k : Half) (v : LinkEnd) : (d.setLinkEnd k v).txn = d.txn := rfl
@[simp] theorem Device.setLinkEnd_power (k : Half) (v : LinkEnd) : (d.setLinkEnd k v).power = d.power := rfl
@[simp] theorem Device.setLinkEnd_regul (k : Half) (v : LinkEnd) : (d.setLinkEnd k v).regul = d.regul := rfl
@[simp] theorem Device.setLinkEnd_govs (k : Half) (v : LinkEnd) : (d.setLinkEnd k v).govs = d.govs := rfl
@[simp] theorem Device.setLinkEnd_therms (k : Half) (v : LinkEnd) : (d.setLinkEnd k v).therms = d.therms := rfl
@[simp] theorem Device.setLinkEnd_compute (k : Half) (v : LinkEnd) : (d.setLinkEnd k v).compute = d.compute := rfl
@[simp] theorem Device.setLinkEnd_host (k : Half) (v : LinkEnd) : (d.setLinkEnd k v).host = d.host := rfl
@[simp] theorem Device.setLinkEnd_service (k : Half) (v : LinkEnd) : (d.setLinkEnd k v).service = d.service := rfl
@[simp] theorem Device.setLinkEnd_deputy (k : Half) (v : LinkEnd) : (d.setLinkEnd k v).deputy = d.deputy := rfl
@[simp] theorem Device.setLinkEnd_nvm (k : Half) (v : LinkEnd) : (d.setLinkEnd k v).nvm = d.nvm := rfl
@[simp] theorem Device.setLinkEnd_cans (k : Half) (v : LinkEnd) : (d.setLinkEnd k v).cans = d.cans := rfl
@[simp] theorem Device.setLinkEnd_twi (k : Half) (v : LinkEnd) : (d.setLinkEnd k v).twi = d.twi := rfl

/-! ### setSlot -/

@[simp] theorem Device.setSlot_cross (k : Nat) (v : TxnSlot) : (d.setSlot k v).cross = d.cross := rfl
@[simp] theorem Device.setSlot_time (k : Nat) (v : TxnSlot) : (d.setSlot k v).time = d.time := rfl
@[simp] theorem Device.setSlot_pins (k : Nat) (v : TxnSlot) : (d.setSlot k v).pins = d.pins := rfl
@[simp] theorem Device.setSlot_regs (k : Nat) (v : TxnSlot) : (d.setSlot k v).regs = d.regs := rfl
@[simp] theorem Device.setSlot_power (k : Nat) (v : TxnSlot) : (d.setSlot k v).power = d.power := rfl
@[simp] theorem Device.setSlot_regul (k : Nat) (v : TxnSlot) : (d.setSlot k v).regul = d.regul := rfl
@[simp] theorem Device.setSlot_govs (k : Nat) (v : TxnSlot) : (d.setSlot k v).govs = d.govs := rfl
@[simp] theorem Device.setSlot_therms (k : Nat) (v : TxnSlot) : (d.setSlot k v).therms = d.therms := rfl
@[simp] theorem Device.setSlot_compute (k : Nat) (v : TxnSlot) : (d.setSlot k v).compute = d.compute := rfl
@[simp] theorem Device.setSlot_host (k : Nat) (v : TxnSlot) : (d.setSlot k v).host = d.host := rfl
@[simp] theorem Device.setSlot_service (k : Nat) (v : TxnSlot) : (d.setSlot k v).service = d.service := rfl
@[simp] theorem Device.setSlot_deputy (k : Nat) (v : TxnSlot) : (d.setSlot k v).deputy = d.deputy := rfl
@[simp] theorem Device.setSlot_nvm (k : Nat) (v : TxnSlot) : (d.setSlot k v).nvm = d.nvm := rfl
@[simp] theorem Device.setSlot_cans (k : Nat) (v : TxnSlot) : (d.setSlot k v).cans = d.cans := rfl
@[simp] theorem Device.setSlot_twi (k : Nat) (v : TxnSlot) : (d.setSlot k v).twi = d.twi := rfl
@[simp] theorem Device.setSlot_link (k : Nat) (v : TxnSlot) : (d.setSlot k v).link = d.link := rfl

@[simp] theorem Device.setWord_bad (k : Nat) (v : W32) : (d.setWord k v).cross.bad = d.cross.bad := rfl

/-! ### report -/

@[simp] theorem Device.report_cross (h : Half) (r : Report) : (d.report h r).cross = d.cross := rfl
@[simp] theorem Device.report_time (h : Half) (r : Report) : (d.report h r).time = d.time := rfl
@[simp] theorem Device.report_pins (h : Half) (r : Report) : (d.report h r).pins = d.pins := rfl
@[simp] theorem Device.report_regs (h : Half) (r : Report) : (d.report h r).regs = d.regs := rfl
@[simp] theorem Device.report_txn (h : Half) (r : Report) : (d.report h r).txn = d.txn := rfl
@[simp] theorem Device.report_power (h : Half) (r : Report) : (d.report h r).power = d.power := rfl
@[simp] theorem Device.report_regul (h : Half) (r : Report) : (d.report h r).regul = d.regul := rfl
@[simp] theorem Device.report_govs (h : Half) (r : Report) : (d.report h r).govs = d.govs := rfl
@[simp] theorem Device.report_therms (h : Half) (r : Report) : (d.report h r).therms = d.therms := rfl
@[simp] theorem Device.report_compute (h : Half) (r : Report) : (d.report h r).compute = d.compute := rfl
@[simp] theorem Device.report_host (h : Half) (r : Report) : (d.report h r).host = d.host := rfl
@[simp] theorem Device.report_service (h : Half) (r : Report) : (d.report h r).service = d.service := rfl
@[simp] theorem Device.report_deputy (h : Half) (r : Report) : (d.report h r).deputy = d.deputy := rfl
@[simp] theorem Device.report_nvm (h : Half) (r : Report) : (d.report h r).nvm = d.nvm := rfl
@[simp] theorem Device.report_twi (h : Half) (r : Report) : (d.report h r).twi = d.twi := rfl
@[simp] theorem Device.report_link (h : Half) (r : Report) : (d.report h r).link = d.link := rfl

/-! ### setReg -/

@[simp] theorem Device.setReg_time (h : Half) (p : PageId) (o : Nat) (v : W32) : (d.setReg h p o v).time = d.time := rfl
@[simp] theorem Device.setReg_pins (h : Half) (p : PageId) (o : Nat) (v : W32) : (d.setReg h p o v).pins = d.pins := rfl
@[simp] theorem Device.setReg_txn (h : Half) (p : PageId) (o : Nat) (v : W32) : (d.setReg h p o v).txn = d.txn := rfl
@[simp] theorem Device.setReg_power (h : Half) (p : PageId) (o : Nat) (v : W32) : (d.setReg h p o v).power = d.power := rfl
@[simp] theorem Device.setReg_regul (h : Half) (p : PageId) (o : Nat) (v : W32) : (d.setReg h p o v).regul = d.regul := rfl
@[simp] theorem Device.setReg_govs (h : Half) (p : PageId) (o : Nat) (v : W32) : (d.setReg h p o v).govs = d.govs := rfl
@[simp] theorem Device.setReg_therms (h : Half) (p : PageId) (o : Nat) (v : W32) : (d.setReg h p o v).therms = d.therms := rfl
@[simp] theorem Device.setReg_compute (h : Half) (p : PageId) (o : Nat) (v : W32) : (d.setReg h p o v).compute = d.compute := rfl
@[simp] theorem Device.setReg_host (h : Half) (p : PageId) (o : Nat) (v : W32) : (d.setReg h p o v).host = d.host := rfl
@[simp] theorem Device.setReg_service (h : Half) (p : PageId) (o : Nat) (v : W32) : (d.setReg h p o v).service = d.service := rfl
@[simp] theorem Device.setReg_deputy (h : Half) (p : PageId) (o : Nat) (v : W32) : (d.setReg h p o v).deputy = d.deputy := rfl
@[simp] theorem Device.setReg_nvm (h : Half) (p : PageId) (o : Nat) (v : W32) : (d.setReg h p o v).nvm = d.nvm := rfl
@[simp] theorem Device.setReg_cans (h : Half) (p : PageId) (o : Nat) (v : W32) : (d.setReg h p o v).cans = d.cans := rfl
@[simp] theorem Device.setReg_twi (h : Half) (p : PageId) (o : Nat) (v : W32) : (d.setReg h p o v).twi = d.twi := rfl
@[simp] theorem Device.setReg_link (h : Half) (p : PageId) (o : Nat) (v : W32) : (d.setReg h p o v).link = d.link := rfl

/-! ### what runOn answers -/

@[simp] theorem runOn_next (s : State) (f : Device → Device) : runOn s f = .next { s with dev := f s.dev } := rfl

end Sys2Proof.Machine
end

