-- ==== Sys2Proof/Laws/Ops.lean ====
section
/-! SUPPORT. Laws of tables, byte memories and registers: read after write, and the canonical form that every write keeps. -/

namespace Sys2Proof.Machine

/-! ## Tables -/

section Tables

variable {α : Type} [DecidableEq α] (dflt : Nat → α)

theorem tabGet_tabPut (i k : Nat) (v : α) (t : Tab α) :
    tabGet dflt (tabPut i v t) k = if k = i then v else tabGet dflt t k := by
  induction t with
  | nil => simp [tabPut, tabGet]
  | cons e t ih =>
    obtain ⟨j, w⟩ := e
    simp only [tabPut]
    by_cases h1 : i < j
    · simp [h1, tabGet]
    · by_cases h2 : i = j
      · subst h2
        by_cases h3 : k = i <;> simp [tabGet, h3]
      · simp only [h1, h2, if_false, tabGet, ih]
        by_cases h3 : k = j
        · simp [h3]
          intro h4; omega
        · simp [h3]

omit [DecidableEq α] in
theorem tabGet_filter (i k : Nat) (t : Tab α) :
    tabGet dflt (t.filter fun e => e.1 ≠ i) k = if k = i then dflt k else tabGet dflt t k := by
  induction t with
  | nil => simp [tabGet]
  | cons e t ih =>
    obtain ⟨j, w⟩ := e
    by_cases h1 : j = i
    · subst h1
      simp only [List.filter, ne_eq, not_true_eq_false, decide_false, ih, tabGet]
      by_cases h2 : k = j <;> simp [h2]
    · simp only [List.filter, ne_eq, h1, not_false_eq_true, decide_true, tabGet, ih]
      by_cases h2 : k = j
      · simp [h2, h1]
      · simp [h2]

/-- Reading a table after a write. -/
theorem tabGet_tabSet (i k : Nat) (v : α) (t : Tab α) :
    tabGet dflt (tabSet dflt i v t) k = if k = i then v else tabGet dflt t k := by
  unfold tabSet
  split
  · rename_i h
    rw [tabGet_filter]
    by_cases hk : k = i <;> simp [hk, h]
  · exact tabGet_tabPut dflt i k v t

@[simp] theorem tget_tset (x : α) (i k : Nat) (v : α) (t : Tab α) :
    tget x (tset x i v t) k = if k = i then v else tget x t k := tabGet_tabSet _ i k v t

theorem tabAbove_mono (b c : Nat) (hbc : b ≤ c) (t : Tab α) (h : tabAbove dflt (some c) t) :
    tabAbove dflt (some b) t := by
  cases t with
  | nil => rfl
  | cons e t =>
    obtain ⟨j, w⟩ := e
    simp only [tabAbove, liesAbove, Bool.and_eq_true, decide_eq_true_eq] at h ⊢
    exact ⟨⟨by omega, h.1.2⟩, h.2⟩

theorem tabAbove_tabPut (b : Option Nat) (i : Nat) (v : α) (hv : v ≠ dflt i) (t : Tab α)
    (hb : ∀ k, b = some k → k < i) (h : tabAbove dflt b t) : tabAbove dflt b (tabPut i v t) := by
  induction t generalizing b with
  | nil =>
    cases b with
    | none => simp [tabPut, tabAbove, liesAbove, hv]
    | some k => simp [tabPut, tabAbove, liesAbove, hv, hb k rfl]
  | cons e t ih =>
    obtain ⟨j, w⟩ := e
    simp only [tabPut]
    have hi : liesAbove b i = true := by
      cases b with
      | none => rfl
      | some k => simp [liesAbove, hb k rfl]
    simp only [tabAbove, Bool.and_eq_true, decide_eq_true_eq] at h
    split
    · rename_i h1
      simp only [tabAbove, Bool.and_eq_true, decide_eq_true_eq]
      exact ⟨⟨hi, hv⟩, ⟨by simpa [liesAbove] using h1, h.1.2⟩, h.2⟩
    · rename_i h1
      split
      · rename_i h2
        subst h2
        simp only [tabAbove, Bool.and_eq_true, decide_eq_true_eq]
        exact ⟨⟨hi, hv⟩, h.2⟩
      · rename_i h2
        simp only [tabAbove, Bool.and_eq_true, decide_eq_true_eq]
        refine ⟨h.1, ih (some j) ?_ h.2⟩
        intro k hk
        cases hk
        omega

theorem tabAbove_filter (b : Option Nat) (p : Nat × α → Bool) (t : Tab α) (h : tabAbove dflt b t) :
    tabAbove dflt b (t.filter p) := by
  induction t generalizing b with
  | nil => exact h
  | cons e t ih =>
    obtain ⟨j, w⟩ := e
    simp only [tabAbove, Bool.and_eq_true, decide_eq_true_eq] at h
    by_cases hp : p (j, w)
    · simp only [List.filter, hp, tabAbove, Bool.and_eq_true, decide_eq_true_eq]
      exact ⟨h.1, ih (some j) h.2⟩
    · simp only [List.filter, hp]
      refine ih b ?_
      cases b with
      | none =>
        cases t with
        | nil => rfl
        | cons f t =>
          obtain ⟨k, u⟩ := f
          simp only [tabAbove, liesAbove, Bool.and_eq_true, decide_eq_true_eq, Bool.true_and] at h ⊢
          exact ⟨h.2.1.2, h.2.2⟩
      | some k =>
        have hk : k < j := by simpa [liesAbove] using h.1.1
        exact tabAbove_mono dflt k j (by omega) t h.2

/-- Every write keeps a table's canonical form. -/
theorem tabWf_tabSet (i : Nat) (v : α) (t : Tab α) (h : tabWf dflt t) : tabWf dflt (tabSet dflt i v t) := by
  unfold tabSet
  split
  · exact tabAbove_filter dflt none _ t h
  · rename_i hv
    exact tabAbove_tabPut dflt none i v hv t (by simp) h

/-- Dropping entries keeps the form: a reset of some registers. -/
theorem tabWf_filter (p : Nat × α → Bool) (t : Tab α) (h : tabWf dflt t) : tabWf dflt (t.filter p) :=
  tabAbove_filter dflt none p t h

end Tables

/-! ## Byte memories -/

/-- The canonical form of a memory: addresses rise and no listed byte is 0. -/
def memWf (m : List Host.Cell) : Bool := tabWf (fun _ => 0#8) m

theorem cellsOf_above (a b : Nat) (bs : List Byte) (h : b < a) : tabAbove (fun _ => 0#8) (some b) (cellsOf a bs) := by
  induction bs generalizing a b with
  | nil => rfl
  | cons x bs ih =>
    simp only [cellsOf]
    split
    · exact ih (a + 1) b (by omega)
    · rename_i hx
      simp only [tabAbove, Bool.and_eq_true, decide_eq_true_eq]
      exact ⟨⟨by simpa [liesAbove] using h, hx⟩, ih (a + 1) a (by omega)⟩

theorem tabAbove_none {m : List Host.Cell} {b : Nat} (h : tabAbove (fun _ => 0#8) (some b) m) :
    tabAbove (fun _ => 0#8) none m := by
  cases m with
  | nil => rfl
  | cons e m =>
    obtain ⟨j, w⟩ := e
    simp only [tabAbove, liesAbove, Bool.and_eq_true, decide_eq_true_eq, Bool.true_and] at h ⊢
    exact ⟨h.1.2, h.2⟩

theorem cellsOf_append_wf (a n : Nat) (bs : List Byte) (rest : List Host.Cell) (b : Option Nat)
    (hb : ∀ k, b = some k → k < a) (hn : a + bs.length ≤ n)
    (hr : tabAbove (fun _ => 0#8) none rest) (hge : ∀ e ∈ rest, n ≤ e.1) :
    tabAbove (fun _ => 0#8) b (cellsOf a bs ++ rest) := by
  induction bs generalizing a b with
  | nil =>
    simp only [cellsOf, List.nil_append]
    cases rest with
    | nil => rfl
    | cons e rest =>
      obtain ⟨j, w⟩ := e
      have hj : n ≤ j := hge (j, w) (by simp)
      simp only [tabAbove, liesAbove, Bool.and_eq_true, decide_eq_true_eq, Bool.true_and] at hr ⊢
      refine ⟨⟨?_, hr.1⟩, hr.2⟩
      cases b with
      | none => rfl
      | some k => have := hb k rfl; simp at hn ⊢; omega
  | cons x bs ih =>
    simp only [cellsOf]
    simp only [List.length_cons] at hn
    split
    · exact ih (a + 1) b (fun k hk => by have := hb k hk; omega) (by omega)
    · rename_i hx
      simp only [List.cons_append, tabAbove, Bool.and_eq_true, decide_eq_true_eq]
      refine ⟨⟨?_, hx⟩, ih (a + 1) (some a) (fun k hk => by cases hk; omega) (by omega)⟩
      cases b with
      | none => rfl
      | some k => simp [liesAbove, hb k rfl]

theorem dropWhile_above (a : Nat) (m : List Host.Cell) (b : Option Nat) (h : tabAbove (fun _ => 0#8) b m) :
    tabAbove (fun _ => 0#8) none (m.dropWhile fun c => decide (c.1 < a)) ∧
      ∀ e ∈ m.dropWhile (fun c => decide (c.1 < a)), a ≤ e.1 := by
  induction m generalizing b with
  | nil => simp [tabAbove]
  | cons e m ih =>
    obtain ⟨j, w⟩ := e
    simp only [tabAbove, Bool.and_eq_true, decide_eq_true_eq] at h
    by_cases hj : j < a
    · simp only [List.dropWhile, hj, decide_true]
      exact ih (some j) h.2
    · simp only [List.dropWhile, hj, decide_false]
      constructor
      · simp only [tabAbove, liesAbove, Bool.and_eq_true, decide_eq_true_eq, Bool.true_and]
        exact ⟨h.1.2, h.2⟩
      · have key : ∀ (t : List Host.Cell) (c : Nat), a ≤ c → tabAbove (fun _ => 0#8) (some c) t → ∀ e ∈ t, a ≤ e.1 := by
          intro t
          induction t with
          | nil => simp
          | cons f t iht =>
            obtain ⟨k, u⟩ := f
            intro c hc ht e he
            simp only [tabAbove, liesAbove, Bool.and_eq_true, decide_eq_true_eq] at ht
            simp only [List.mem_cons] at he
            rcases he with rfl | he
            · simp; omega
            · exact iht k (by omega) ht.2 e he
        intro e he
        simp only [List.mem_cons] at he
        rcases he with rfl | he
        · simp; omega
        · exact key m j (not_lt.mp hj) h.2 e he

theorem putBytes_above (m : List Host.Cell) (a : Nat) (bs : List Byte) (b : Option Nat)
    (hb : ∀ k, b = some k → k < a) (h : tabAbove (fun _ => 0#8) b m) :
    tabAbove (fun _ => 0#8) b (putBytes m a bs) := by
  unfold putBytes
  have hd := dropWhile_above (a + bs.length) m b h
  generalize m.dropWhile (fun c => decide (c.1 < a + bs.length)) = rest at hd
  induction m generalizing b with
  | nil => exact cellsOf_append_wf a _ bs rest b hb (le_refl _) hd.1 hd.2
  | cons e m ih =>
    obtain ⟨j, w⟩ := e
    simp only [tabAbove, Bool.and_eq_true, decide_eq_true_eq] at h
    by_cases hj : j < a
    · simp only [List.takeWhile, hj, decide_true, List.cons_append, List.append_assoc, tabAbove, Bool.and_eq_true,
        decide_eq_true_eq]
      refine ⟨h.1, ?_⟩
      have := ih (some j) (fun k hk => by cases hk; exact hj) h.2
      simpa using this
    · simp only [List.takeWhile, hj, decide_false, List.nil_append]
      exact cellsOf_append_wf a _ bs rest b hb (le_refl _) hd.1 hd.2

/-- Every write of bytes keeps a memory's canonical form. -/
theorem memWf_putBytes (m : List Host.Cell) (a : Nat) (bs : List Byte) (h : memWf m) : memWf (putBytes m a bs) :=
  putBytes_above m a bs none (by simp) h

/-! ## Registers -/

/-- Reading a register word after a write of one. -/
@[simp] theorem Device.word_setWord (d : Device) (k j : Nat) (v : W32) :
    (d.setWord k v).word j = if j = k then v else d.word j := tabGet_tabSet regReset k j v d.regs

/-- The register map's canonical form. -/
def Device.regsWf (d : Device) : Prop := tabWf regReset d.regs = true

theorem Device.regsWf_setWord (d : Device) (k : Nat) (v : W32) (h : d.regsWf) : (d.setWord k v).regsWf :=
  tabWf_tabSet regReset k v d.regs h

end Sys2Proof.Machine
end

