-- ==== Sys2Proof/Tests/Slice0.lean ====
section
/-! SUPPORT. Tests: the manual's worked examples, ill-formed commands, and a state for every statement's hypotheses. -/

set_option linter.unusedVariables false

namespace Sys2Proof.Tests
open Sys2Proof Sys2Proof.Machine

/-! ## Small states -/

/-- A block in use: PORST_N and PERSTh_N high, VIN released, every domain ON, the crosscut and the bell line up, both Deputies
running and both ports bus masters. -/
def live : Device :=
  { pins := { porstLow := false, persthLow := [(0, false), (1, false)], vinReleased := [(0, true), (1, true)] }
    power := { parts := (List.range 10).map fun k => (k, { st := .on }), creditOpen := true }
    deputy := { running := [(0, true), (1, true)] }
    link := { ends := [(0, { st := .up, bell := true }), (1, { st := .up, bell := true })] }
    host := { ports := [(0, { bme := true }), (1, { bme := true })] } }

/-- A state of that block, changed. -/
def at_ (f : Device → Device) : State := { pending := [], dev := f live }

/-- What holds of the block after a command; nothing holds of a stop. -/
def leaves (o : Host.Outcome State Fault Refusal) (p : Device → Bool) : Bool :=
  match o with
  | .next t => p t.dev
  | _ => false

/-- A number as n bytes, the lowest first. -/
def le (n v : Nat) : List Byte := (List.range n).map fun i => BitVec.ofNat 8 (v / 256 ^ i)

/-- A packet of an opcode, a lode and a session, with sequence number 3. -/
def packet (op lode session : Nat) (body : List Byte) : Packet :=
  { seq := 3#32, padded := pad64 (32 + body.length)
    bytes := le 3 0 ++ le 1 op ++ le 12 0 ++ le 4 session ++ le 2 lode ++ le 10 0 ++ body }

/-- The smallest lode image: one tensor without tiles, one program of one MMA, one stream from a tile mover to it, one cost. The
CRCs were computed outside Lean over the bytes that R217, R219 and R222 name. -/
def tinyImage : List Host.Cell :=
  let head := le 4 0x5EA310DE ++ le 2 1 ++ le 2 1 ++ le 8 20488 ++ le 4 1 ++ le 4 1 ++ le 8 0 ++ le 8 4096 ++ le 8 8192
    ++ le 8 16384 ++ le 4 5 ++ le 4 0x97ACA1E2
  let service := le 4 0x5EA35D01 ++ le 4 2 ++ le 4 1 ++ le 4 1 ++ le 4 1 ++ le 40 0 ++ le 4 0x1BE809E0
  let program := le 4 0 ++ le 4 1 ++ le 8 12288 ++ le 4 0x2B20D9B0
  let op := le 2 0x0115 ++ le 2 0x0100 ++ le 2 0 ++ le 2 0xFFFF ++ le 2 0xFFFF
  let stream := le 4 0 ++ le 2 0x1000 ++ le 2 0 ++ le 4 1 ++ le 4 1 ++ le 4 7
  let cost := le 4 0x0115 ++ le 4 1
  putBytes (putBytes (putBytes (putBytes (putBytes (putBytes [] 0 (head ++ service)) 4096 (le 4 7)) 8192 program) 12288 op)
    16384 stream) 20480 cost

/-- An op word of a class with its streams, the last of its program. -/
def anOp (cls a b out : W16) : OpWord :=
  { cls, engine := 0#8, last := true, a, b, out, acc := 0#16, param := 0#32 }

/-- A block whose lode 2 is in a step, with one op on bay 30: its input streams 0 and 2 hold tiles, its output stream 1 space. -/
def opAt (o : OpWord) (data space : Nat) : State :=
  at_ fun d => (d.setLode 2
    { st := .resident, stepping := true, halves := [.b], vocab := 4, programs := [(0, { half := .b, ops := [o], bay := some 30 })]
      streams := [(0, { consumer := 0x8000#16, producer := 0x9000#16, depth := 4, data }),
        (1, { producer := 0x8000#16, consumer := 0x9000#16, depth := 4, space }),
        (2, { consumer := 0x8000#16, producer := 0x9000#16, depth := 4, data })] }).setBay 30 { slot := some 2 }

/-- A block whose lode 2 is in a step, with one stream from the tile movers of Half A, which tile mover 4 serves. -/
def moverAt : State :=
  at_ fun d => d.setLode 2
    { st := .resident, stepping := true, movers := [(0, [4])]
      streams := [(3, { producer := 0x1000#16, consumer := 0x0000#16, depth := 4, space := 4, perStep := 2 })] }

theorem moverAt_work : moverAt.dev.moverWork 4 ≠ [] := by
  have h : moverAt.dev.serves 4 2 3 = true := by
    simp [Device.serves, moverAt, at_, live, Device.lode, Device.setLode, tget, tset, tabGet, tabSet, tabPut, moverHalf, Half.idx,
      Nat.mod_one]
  have e : (2, 3) ∈ moverAt.dev.moverWork 4 := by
    refine List.mem_flatMap.2 ⟨2, by decide, List.mem_map.2 ⟨3, List.mem_filter.2 ⟨by decide, h⟩, rfl⟩⟩
  exact List.ne_nil_of_mem e

theorem moverAt_draws : ∀ w ∈ moverAt.dev.moverWork 4, ∀ n, moverAt.dev.moverLayer w.1 w.2 = some n →
      (moverAt.dev.draw (moverHalf 4) (28 + n) seamCost).1 = true := by
  intro w hw n hn
  obtain ⟨l, hl, hm⟩ := List.mem_flatMap.1 hw
  obtain ⟨i, hi, rfl⟩ := List.mem_map.1 hm
  have e : l = 2 := by
    have : (moverAt.dev.usedSlots.filter fun l => (moverAt.dev.lode l).stepping) = [2] := by decide
    rw [this] at hl; simpa using hl
  subst e
  have e : moverAt.dev.moverLayer 2 i = none := by
    simp [Device.moverLayer, Lode.tensorOf, moverAt, at_, live, Device.lode, Device.setLode, tget, tset, tabGet, tabSet, tabPut]
  simp [e] at hn

/-! ## Worked examples of the manual -/

-- File 00: VCODE 320 is the word 0xFEBF_0140, and 0x0000_0140 fails the complement check.
theorem test_cp_word : cpWord 320 = 0xFEBF0140#32 ∧ cpOk 0xFEBF0140#32 = true ∧ cpOk 0x140#32 = false := by decide

-- File 02: the LPE page of cluster 45 lies at 0x1A_D000 and its PID reads 0x1101_002D.
theorem test_lpe_page : pageBase (lpeP 45) = 0x1AD000 ∧ (at_ id).dev.view .hosta .a (lpeP 45) 0 = 0x1101002D#32 := by decide

-- File 02: BEGIN 0x0A11_0001 leaves STAT0 at 0x0A11_0001.
theorem test_begin_stat :
    leaves (exec (.txnBegin .hosta 0 0x0A11#16) (at_ id)) (fun d => d.view .hosta .a txnP 0x44 == 0x0A110001#32) = true := by decide

-- File 02: the application boundary's check finds 0.920 V above a VMAX of 0.900 V: STAT2 = 0x0B07_0104, FAIL2 = 0x12_1040.
theorem test_envelope_abort :
    leaves (exec (.checkBoundary 2) (at_ fun d =>
      (((d.setCluster 32 { st := .active }).setCluster 33 { st := .active }).setBoth depP (0xC0 + 4 * 3) (cpWord 400)).setSlot 2
        { phase := .committing, tag := 0x0B07#16, staged := [(0x120040, cpWord 360), (0x121040, cpWord 416)]
          claims := [(0x120000, 0#32), (0x121000, 0#32)] }))
      (fun d => d.view .hosta .a txnP 0x84 == 0x0B070104#32 && (d.slotAt 2).fail == 0x121040#32) = true := by decide

-- File 03: the commit-grid boundary after 0x1_2345_6789 is 0x1_2345_6800.
theorem test_commit_grid : nextMultiple 128 0x123456789#64 = 0x123456800#64 := by decide

-- File 06: at 10.0 mV/µs the reference has risen from 0.800 V to 0.8384 V, to four places, in 48 samples of 80 ns.
set_option maxRecDepth 20000 in
theorem test_slew_rate :
    let v := (List.range 48).foldl (fun v _ => slewStep 80 16 v (900 * mV)) (800 * mV)
    838 * mV + 44800 ≤ v ∧ v < 838 * mV + 57600 := by decide

-- File 06: from 0.8496 V the next step of 1.6 mV would pass 0.850 V, so the reference takes it.
theorem test_slew_end : slewStep 80 32 (849 * mV + 76800) (850 * mV) = 850 * mV := by decide

-- File 08: a cluster with one cell latched is rated at 14,000 mA.
theorem test_rating :
    (at_ fun d => d.setCluster 17 { st := .active, cells := [(5, { st := .latched })] }).dev.rating 17 = 14000 := by decide

-- File 11: the header words of a REQUEST XOR to 0x9C30_9DEA.
set_option maxRecDepth 20000 in
theorem test_hchk : xorWords (le 4 0x010158C6 ++ le 4 0x00010011 ++ le 4 0x1F0 ++ le 4 0x2A ++ le 4 0 ++ le 4 0x00010005
    ++ le 4 0x9D31C4E2) = 0x9C309DEA#32 := by decide

-- File 14: the report of CMPL_STORE with INJECTED by CLU[17].TGT.
theorem test_report_words :
    (({ unit := 0x11, kind := 0x06, addr := 0x111040, injected := true } : Report).message .a).word0 = 0x0221800444102000#64
      ∧ (({ unit := 0x11, kind := 0x06, addr := 0x111040, injected := true } : Report).message .a).word1 = 0xFDDE7FFB#32 := by
  decide

-- File 15: BASE 0x52 and MASK 0x24 answer four addresses, contexts 0 to 3.
theorem test_twi_mask :
    let d := ((at_ id).dev.setReg .a (twiP 0) 0x4C 0x2452#32).setReg .a (twiP 0) 0x40 0x102#32
    [0x52#7, 0x56#7, 0x72#7, 0x76#7, 0x54#7].map d.twiContext = [some 0, some 1, some 2, some 3, none] := by decide

-- File 15: context 0 reads CLU[17].IMEAS of a cluster that carries 10,710 mA: 0x04, 0xD6, 0x29, 0x00, 0x00.
theorem test_twi_read :
    leaves (exec (.twiReadAt { addr := 0x58#7, count := 3#8, data := [0x8C#8, 0x10#8, 0x11#8], pec := none, ready := true })
      (at_ fun d => d.setCluster 17 { st := .active, current := 10710 }))
      (fun d => d.twi.reply.take 5 == [0x04#8, 0xD6#8, 0x29#8, 0#8, 0#8] && (d.twiCtx 0).pointer == 0x111090#24) = true := by
  decide

-- File 11: the safe state's message waits for Bus Master Enable, and goes out with it where its vector is not masked.
theorem test_kept_message :
    leaves (exec (.busMasterEnable .a true true) (at_ fun d => d.setPort .a { haltVec := some 7#8, vectors := [(31, 0#32)] }))
      (fun d => (d.port .a).posted == [.msix 7#8] && (d.port .a).haltVec == none) = true := by decide

-- File 02: a TX write to a far-half page inside an open transaction ends it with LINK.
theorem test_far_tx_write :
    leaves (exec (.registerWrite ⟨.hosta, 0x124040#24, some (cpWord 320), true, false, .registers⟩)
        (at_ fun d => ((d.setLinkEnd .a { st := .failed, mode := .split }).setLinkEnd .b { st := .failed, mode := .split }).setSlot 0
          { phase := .open }))
      (fun d => (d.slotAt 0).phase == .aborted && (d.slotAt 0).reason == 3#4 && (d.canary .a).inFlight.length == 2) = true := by
  decide

-- File 12: the toy lode's logits 2.0, 1.0, 0.5, 0.0 and -1.0 keep tokens 0-2.
theorem test_greedy : sampleToken { queue := 9, tag := 1#32, st := .running, cls := 1, lode := 2, session := 0#32, maxNew := 1, mode := 0#8, k := 0, p := 0#32, temp := 0#32, seed := 0#64, stops := [], input := [], stream := false }
    [0x40000000#32, 0x3F800000#32, 0x3F000000#32, 0#32, 0xBF800000#32] = some 0 := by decide

-- File 13: banks 41 valid on both halves, 42 valid on Half A alone: both take 41.
theorem test_store_choice :
    let bank (n : Nat) (c : Bool) : Bank := { header := true, commit := c, seq := w32 n }
    let d := { live with nvm := { banks := [(0, bank 41 true), (1, bank 42 true), (2, bank 41 true), (3, bank 42 false)] } }
    d.chooseBank .a true = (some 0, false) ∧ d.chooseBank .b true = (some 0, false) := by decide

-- File 00 names CRC-32C; its check value over "123456789" in the catalogues is 0xE306_9283.
set_option maxRecDepth 20000 in
theorem test_crc32c : crc32c [0x31#8, 0x32#8, 0x33#8, 0x34#8, 0x35#8, 0x36#8, 0x37#8, 0x38#8, 0x39#8] = 0xE3069283#32 := by decide

set_option maxRecDepth 20000 in
theorem test_tiny_image : imageCheck tinyImage = 0 := by decide

/-! ## Ill-formed commands, one for each check -/

theorem refuses_poisoned_read :
    (Instr.registerWrite { master := .hosta, offset := 0#24, write := none, oneDword := true, poisoned := true, bar := .registers }).wellFormed
      = false := by decide
theorem refuses_far_window :
    (Instr.registerWrite { master := .hosta, offset := 0#24, write := none, oneDword := true, poisoned := false, bar := .window 512 [] }).wellFormed
      = false := by decide
theorem refuses_deputys_msix :
    (Instr.registerWrite { master := .dep .a, offset := 0#24, write := none, oneDword := true, poisoned := false, bar := .msix }).wellFormed
      = false := by decide
theorem refuses_short_vin : (Instr.vinUv .a [1, 2, 3]).wellFormed = false := by decide
theorem refuses_start_measures : (Instr.sequenceStep 0 { remote := [], loc := [], vin := 0 }).wellFormed = false := by decide
theorem refuses_reason_nine : (Instr.pdSeqFail 0 9#8).wellFormed = false := by decide
theorem refuses_seven_cells : (Instr.innerLoopSample 0 { remote := 0, loc := 0, vin := 0, cells := [1, 2, 3, 4, 5, 6, 7] }).wellFormed
    = false := by decide
theorem refuses_wide_vseta : (Instr.outerLoopSample 0 { sense := [1, 2, 3, 4], vseta := 4096 }).wellFormed = false := by decide
theorem refuses_three_points : (Instr.outerLoopSample 0 { sense := [1, 2, 3], vseta := 0 }).wellFormed = false := by decide
theorem refuses_fifteen_periods : (Instr.syncAcquire 0 (List.replicate 15 1)).wellFormed = false := by decide
theorem refuses_duty_above_one : (Instr.pulsePeriod 0 5 4).wellFormed = false := by decide
theorem refuses_empty_period : (Instr.pulsePeriod 0 0 0).wellFormed = false := by decide
theorem refuses_short_scan : (Instr.thermalScan .a []).wellFormed = false := by decide
theorem refuses_window_overrun : (Instr.windowWrite 0 0xFFFF#16 [0#8, 0#8] false).wellFormed = false := by decide
theorem refuses_wide_tensor : (Instr.backgroundScrub .a (.uncorrectable (.homeTensor 0 (2 ^ 32)))).wellFormed = false := by decide
theorem refuses_wide_bin : (Instr.powerBin .a (2 ^ 32)).wellFormed = false := by decide
theorem refuses_empty_frame : (Instr.nvmFrame .a []).wellFormed = false := by decide
theorem refuses_long_frame : (Instr.twiFrame .a (List.replicate 17 0#8)).wellFormed = false := by decide
set_option maxRecDepth 20000 in
theorem refuses_long_block :
    (Instr.twiWrite { addr := 0x58#7, count := 0#8, data := List.replicate 256 0#8, pec := none, ready := true }).wellFormed
      = false := by decide

/-! ## A state and operands that meet the hypotheses of each statement, clause by clause -/

theorem witness_idle_step_is_one_cycle_0 : ∃ (s : State),
    s.pending = [] ∧
    s.dev.pins.porstLow = true :=
  ⟨State.reset,
   by decide,
   by decide⟩

theorem witness_idle_step_is_one_cycle_1 : ∃ (s : State),
    s.pending = [] ∧
    s.dev.pins.porstLow = false :=
  ⟨at_ fun d => d,
   by decide,
   by decide⟩

theorem witness_the_queue_drains_in_order_1 : ∃ (s : State) (k : Nat),
    k ≤ s.pending.length :=
  ⟨{ pending := [.warmN, .poll], dev := {} }, 1,
   by decide⟩

theorem witness_every_step_keeps_registers_canonical_0 : ∃ (s t : State),
    regsCanonical s ∧
    (step s = .next t) :=
  ⟨State.reset, { State.reset with dev := State.reset.dev.tick },
   by decide,
   rfl⟩

theorem witness_direct_write_stores_and_counts_0 : ∃ (s : State) (m : Master) (off : BitVec 24) (p : PageId) (v : W32),
    (pageAt off.toNat = some p) ∧
    (off.toNat % 0x1000 = 0x18) ∧
    passes s.dev m p 0x18 :=
  ⟨at_ fun d => d, .hosta, 0x5018#24, ovmP, 0xFFFFFFFF#32,
   by decide,
   by decide,
   by decide⟩

theorem witness_write_without_ownership_is_discarded_0 : ∃ (s : State) (m : Master) (off : BitVec 24) (p : PageId) (v : W32),
    (pageAt off.toNat = some p) ∧
    (off.toNat % 0x1000 = 0x18) ∧
    arrives s.dev m ∧
    (s.dev.farPage m p = false) ∧
    (s.dev.owns m p = false) :=
  ⟨at_ fun d => d, .hosta, 0x4018#24, depP, 5#32,
   by decide,
   by decide,
   by decide,
   by decide,
   by decide⟩

theorem witness_far_half_access_1 : ∃ (s : State) (m : Master) (off : BitVec 24) (p : PageId) (row : RegRow) (i : Nat),
    s.dev.apart = true ∧
    p.1.isGlobal = false ∧
    (pageHalf p.1 p.2 = (homeOf m).other) ∧
    (pageAt off.toNat = some p) ∧
    (off.toNat % 4 = 0) ∧
    arrives s.dev m ∧
    (findRow p (off.toNat % 0x1000) = some (row, i)) :=
  ⟨at_ fun d => (d.setLinkEnd .a { st := .failed, mode := .split, bell := true, agreed := true }).setLinkEnd .b { st := .failed, mode := .split, bell := true, agreed := true }, .hosta, 0x124040#24, (.clu, 36), (bodyRows (.clu, 36)).headD { off := 0, acc := .ro }, 0,
   by decide,
   by decide,
   by decide,
   by decide,
   by decide,
   by decide,
   rfl⟩

theorem witness_far_half_access_2 : ∃ (s : State) (m : Master) (off : BitVec 24) (p : PageId) (w : Option W32),
    s.dev.apart = true ∧
    p.1.isGlobal = false ∧
    (pageHalf p.1 p.2 = (homeOf m).other) ∧
    (pageAt off.toNat = some p) ∧
    (off.toNat % 4 = 0) ∧
    arrives s.dev m ∧
    (findRow p (off.toNat % 0x1000) = none) :=
  ⟨at_ fun d => (d.setLinkEnd .a { st := .failed, mode := .split, bell := true, agreed := true }).setLinkEnd .b { st := .failed, mode := .split, bell := true, agreed := true }, .hosta, 0x124FFC#24, (.clu, 36), none,
   by decide,
   by decide,
   by decide,
   by decide,
   by decide,
   by decide,
   by decide⟩

theorem witness_reads_of_registers_0 : ∃ (s : State) (m : Master) (off : BitVec 24) (p : PageId),
    (pageAt off.toNat = some p) ∧
    (off.toNat % 0x1000 = 0x18) ∧
    arrives s.dev m ∧
    (s.dev.farPage m p = false) :=
  ⟨at_ fun d => d, .hostb, 0x5018#24, ovmP,
   by decide,
   by decide,
   by decide,
   by decide⟩

theorem witness_reads_of_registers_1 : ∃ (s : State) (m : Master),
    arrives s.dev m :=
  ⟨at_ fun d => d, .dep .b,
   by decide⟩

theorem witness_unit_resets_0 : ∃ (s : State) (m : Master) (off : BitVec 24) (p : PageId),
    s.dev.txn.held = [] ∧
    (pageAt off.toNat = some p) ∧
    passes s.dev m p 0x10 ∧
    (p.1 = .clu → s.dev.pageState (copyOf m p) p = 3 ∨ s.dev.pageState (copyOf m p) p = 5) ∧
    (s.dev.pageState (copyOf m p) p ≠ 6) ∧
    (s.dev.pageState (copyOf m p) p ≠ 7) :=
  ⟨at_ fun d => d, (.ovm 0), 0x303010#24, bayP 3,
   by decide,
   by decide,
   by decide,
   by decide,
   by decide,
   by decide⟩

theorem witness_unit_resets_1 : ∃ (s : State) (m : Master) (off : BitVec 24) (p : PageId),
    s.dev.txn.held = [] ∧
    (pageAt off.toNat = some p) ∧
    (p.1 = .bay ∨ p.1 = .thm ∨ p.1 = .tmb) ∧
    (bit (s.dev.reg (copyOf m p) p 0x10) 1 = true) ∧
    (∀ h, s.dev.imageOf h = []) :=
  ⟨at_ fun d => d.setReg .a (bayP 3) 0x10 3#32, (.ovm 0), 0x303010#24, bayP 3,
   by decide,
   by decide,
   by decide,
   by decide,
   by intro h; cases h <;> decide⟩

theorem witness_unit_resets_2 : ∃ (s : State) (m : Master) (off : BitVec 24) (phase : ResetPhase),
    s.dev.txn.held = [] ∧
    (s.dev.reaches m = true) ∧
    (pageAt off.toNat = none) :=
  ⟨at_ fun d => d, .hosta, 0xFFF010#24, .whole,
   by decide,
   by decide,
   by decide⟩

theorem witness_unit_resets_3 : ∃ (s : State) (m : Master) (off : BitVec 24) (p : PageId),
    s.dev.txn.held = [] ∧
    (pageAt off.toNat = some p) ∧
    passes s.dev m p 0x10 ∧
    (p.1 = .clu → s.dev.pageState (copyOf m p) p = 3 ∨ s.dev.pageState (copyOf m p) p = 5) ∧
    (s.dev.pageState (copyOf m p) p ≠ 6) ∧
    (s.dev.pageState (copyOf m p) p ≠ 7) :=
  ⟨at_ fun d => d, (.ovm 0), 0x303010#24, bayP 3,
   by decide,
   by decide,
   by decide,
   by decide,
   by decide,
   by decide⟩

theorem witness_transaction_commands_0 : ∃ (s : State) (m : Master) (slot : Fin 5) (tag : W16),
    slot.val = slotOf m ∧
    passes s.dev m txnP (0x40 + 0x20 * slot.val) ∧
    ((s.dev.slotAt (s.dev.slotKey m slot)).busy = false) :=
  ⟨at_ fun d => d, .hosta, 0, 7#16,
   by decide,
   by decide,
   by decide⟩

theorem witness_transaction_commands_1 : ∃ (s : State) (m : Master) (slot : Fin 5) (tag : W16),
    slot.val = slotOf m ∧
    passes s.dev m txnP (0x40 + 0x20 * slot.val) ∧
    ((s.dev.slotAt (s.dev.slotKey m slot)).phase = .open) ∧
    ((s.dev.slotAt (s.dev.slotKey m slot)).tag = tag) :=
  ⟨at_ fun d => d.setSlot 0 { phase := .open, tag := 7#16 }, .hosta, 0, 7#16,
   by decide,
   by decide,
   by decide,
   by decide⟩

theorem witness_transaction_commands_2 : ∃ (s : State) (m : Master) (slot : Fin 5) (tag : W16),
    slot.val = slotOf m ∧
    passes s.dev m txnP (0x40 + 0x20 * slot.val) ∧
    ((s.dev.slotAt (s.dev.slotKey m slot)).phase = .open) ∧
    ((s.dev.slotAt (s.dev.slotKey m slot)).tag = tag) :=
  ⟨at_ fun d => d.setSlot 0 { phase := .open, tag := 7#16 }, .hosta, 0, 7#16,
   by decide,
   by decide,
   by decide,
   by decide⟩

theorem witness_transaction_checks_0 : ∃ (s : State) (slot : Fin 10),
    ((s.dev.slotAt slot).phase = .open) ∧
    s.dev.pins.porstLow = false ∧
    ((s.dev.slotAt slot).home = .b → s.dev.time.slew = 0) :=
  ⟨at_ fun d => d.setSlot 1 { phase := .open, limit := 10000 }, 1,
   by decide,
   by decide,
   by decide⟩

theorem witness_transaction_checks_1 : ∃ (s : State) (slot : Fin 10),
    ((s.dev.slotAt slot).phase = .committing) ∧
    s.dev.txn.held = [] ∧
    s.dev.cross.bad = [] ∧
    (s.dev.checkStored (s.dev.slotAt slot).home depP = s.dev) :=
  ⟨at_ fun d => d.setSlot 1 { phase := .committing, staged := [(0x220040, cpWord 5)], claims := [(0x220000, 0#32)] }, 1,
   by decide,
   by decide,
   by decide,
   by decide⟩

theorem witness_transaction_checks_2 : ∃ (s : State) (slot : Fin 10) (inTime : Bool),
    ((s.dev.slotAt slot).phase = .checked) ∧
    ((s.dev.slotAt slot).spans = true) ∧
    s.dev.txn.held = [] ∧
    ((s.dev.slotAt slot).found = 0#4) :=
  ⟨at_ fun d => d.setSlot 1 { phase := .checked, staged := [(0x220040, 5#32), (0x221040, 5#32)], claims := [(0x220000, 0#32), (0x221000, 0#32)] }, 1, true,
   by decide,
   by decide,
   by decide,
   by decide⟩

theorem witness_application_boundary_makes_words_live_0 : ∃ (s : State) (slot : Fin 10) (goArrived : Bool) (t : TxnSlot),
    t = s.dev.slotAt slot ∧
    t.phase = .checked ∧
    t.spans = false ∧
    s.dev.txn.held = [] ∧
    (∀ k ∈ s.dev.cross.bad, k ∈ t.offsets ∧ (stagedAt k).1 ≠ txnP) ∧
    ((s.dev.advanceTo t.home (t.boundary + 128#64)).domainFails t = []) ∧
    (∀ off ∈ t.offsets, off ≠ 0x6084 ∧ ∀ i < 8, off ≠ 0x6040 + 4 * i) :=
  ⟨at_ fun d => d.setSlot 1 { phase := .checked, staged := [(0x220040, cpWord 5)], claims := [(0x220000, 0#32)] }, 1, true, { phase := .checked, staged := [(0x220040, cpWord 5)], claims := [(0x220000, 0#32)] },
   by decide,
   by decide,
   by decide,
   by decide,
   by decide,
   by decide,
   by decide⟩

theorem witness_clock_events_0 : ∃ (s : State) (h : Half) (edges : Nat),
    s.dev.pins.porstLow = false ∧
    (tget false s.dev.time.counted h.idx = false) :=
  ⟨at_ fun d => d, .b, 400,
   by decide,
   by decide⟩

theorem witness_clock_events_1 : ∃ (s : State) (h : Half),
    s.dev.pins.porstLow = false ∧
    (s.dev.onOscillator h = false) ∧
    (tget false s.dev.time.counted h.idx = true) :=
  ⟨at_ fun d => { d with time := { d.time with counted := [(0, true)] } }, .a,
   by decide,
   by decide,
   by decide⟩

theorem witness_clock_events_2 : ∃ (s : State) (h : Half) (pll : Fin 9),
    pll ≠ 0 ∧
    (bit (s.dev.reg .a clkP 0x40) (16 * h.idx + pll) = true) :=
  ⟨at_ fun d => d.setBoth clkP 0x40 0x30#32, .a, 5,
   by decide,
   by decide⟩

theorem witness_clock_events_3 : ∃ (s : State) (h : Half) (unit : BitVec 10) (addr : W32),
    s.dev.pins.porstLow = false :=
  ⟨at_ fun d => d, .b, 0x3FF#10, 0x7040#32,
   by decide⟩

theorem witness_timebase_alignment_0 : ∃ (s : State),
    s.dev.pins.porstLow = false :=
  ⟨at_ fun d => d,
   by decide⟩

theorem witness_timebase_alignment_1 : ∃ (s : State) (offset o : Int),
    s.dev.link.bell.align = true ∧
    o = s.dev.measured offset :=
  ⟨at_ fun d => { d with link := { d.link with bell := { align := true } } }, -20, -10,
   by decide,
   by decide⟩

theorem witness_timebase_alignment_2 : ∃ (s : State) (h : Half),
    s.dev.pins.porstLow = false ∧
    s.dev.aligned = true ∧
    (s.dev.onOscillator .a = true ∨ s.dev.onOscillator .b = true) :=
  ⟨at_ fun d => (d.setBoth clkP 0x44 1#32).setBoth tmbP 0x48 0x80000000#32, .a,
   by decide,
   by decide,
   by decide⟩

theorem witness_crosscut_repair_and_training_0 : ∃ (s : State) (h : Half) (failed : Bool),
    s.dev.txn.held = [] ∧
    ((s.dev.linkEnd h).st = .up) ∧
    (s.dev.armedFor h 0x69 0 = none) ∧
    (failed = true → (s.dev.linkEnd h).failedReplays < 7) :=
  ⟨at_ fun d => d, .b, true,
   by decide,
   by decide,
   by decide,
   by decide⟩

theorem witness_crosscut_repair_and_training_1 : ∃ (s : State) (h : Half) (b : Fin 64) (lane : BitVec 6),
    s.dev.txn.held = [] ∧
    ((s.dev.linkEnd h).st = .up ∨ (s.dev.linkEnd h).st = .training) ∧
    lane.toNat < 40 ∧
    ((tget {} (s.dev.linkEnd h).bundles b : Bundle).used = false) :=
  ⟨at_ fun d => d, .a, 63, 39#6,
   by decide,
   by decide,
   by decide,
   by decide⟩

theorem witness_crosscut_repair_and_training_2 : ∃ (s : State) (m : Master),
    passes s.dev m devP 0x80 ∧
    ((s.dev.linkEnd (homeOf m)).mode ≠ .joined) ∧
    s.dev.spanningWork = false ∧
    (s.dev.isOn (linkPart (homeOf m)) = true) ∧
    s.dev.bellUp = true ∧
    s.dev.storeOverBell = false ∧
    ((s.dev.linkEnd (homeOf m)).st ≠ .training) :=
  ⟨at_ fun d => (d.setLinkEnd .a { st := .failed, mode := .split, bell := true, agreed := true }).setLinkEnd .b { st := .failed, mode := .split, bell := true, agreed := true }, .hosta,
   by decide,
   by decide,
   by decide,
   by decide,
   by decide,
   by decide,
   by decide⟩

theorem witness_crosscut_repair_and_training_3 : ∃ (s : State),
    (∀ h, (s.dev.linkEnd h).st = .training ∧ (s.dev.linkEnd h).mode = .joined) ∧
    (s.dev.isOn 6 = true) ∧
    (s.dev.isOn 8 = true) :=
  ⟨at_ fun d => (d.setLinkEnd .a { st := .training, bell := true }).setLinkEnd .b { st := .training, bell := true },
   by intro h; cases h <;> decide,
   by decide,
   by decide⟩

theorem witness_crosscut_repair_and_training_4 : ∃ (s : State) (h : Half) (unrepairable : Bool),
    s.dev.txn.held = [] ∧
    ((s.dev.linkEnd h).st = .training) ∧
    ((s.dev.linkEnd h).mode ≠ .joined) :=
  ⟨at_ fun d => d.setLinkEnd .a { st := .training, mode := .split, bell := true }, .a, true,
   by decide,
   by decide,
   by decide⟩

theorem witness_entry_into_split_0 : ∃ (s : State) (h : Half),
    s.dev.txn.held = [] ∧
    ((s.dev.linkEnd h).st = .up) ∧
    ((s.dev.linkEnd h).mode = .joined) :=
  ⟨at_ fun d => d, .b,
   by decide,
   by decide,
   by decide⟩

theorem witness_entry_into_split_1 : ∃ (s : State) (reason : Byte),
    s.dev.txn.held = [] ∧
    s.dev.link.bell.splitReq = some .b ∧
    ((s.dev.linkEnd .a).mode = .joined) ∧
    s.dev.bellUp = true :=
  ⟨at_ fun d => { d with link := { d.link with bell := { splitReq := some .b } } }, 1#8,
   by decide,
   by decide,
   by decide,
   by decide⟩

theorem witness_entry_into_split_2 : ∃ (s : State),
    s.dev.txn.held = [] ∧
    s.dev.link.bell.splitGo = true ∧
    ((s.dev.linkEnd .b).mode = .joined) ∧
    s.dev.bellUp = true :=
  ⟨at_ fun d => { d.setLinkEnd .a { st := .failed, mode := .split, reason := 1#8, bell := true } with link := { (d.setLinkEnd .a { st := .failed, mode := .split, reason := 1#8, bell := true }).link with bell := { splitGo := true } } },
   by decide,
   by decide,
   by decide,
   by decide⟩

theorem witness_entry_into_split_3 : ∃ (s : State),
    s.dev.link.bell.splitAck = true ∧
    s.dev.bellUp = true ∧
    s.dev.apart = true ∧
    s.dev.pins.porstLow = false :=
  ⟨at_ fun d => { d.setLinkEnd .a { st := .failed, mode := .split, bell := true } with link := { (d.setLinkEnd .a { st := .failed, mode := .split, bell := true }).link with bell := { splitAck := true } } },
   by decide,
   by decide,
   by decide,
   by decide⟩

theorem witness_bell_line_frames_0 : ∃ (s : State) (h : Half),
    ((s.dev.linkEnd h).bell = false) ∧
    s.dev.pins.porstLow = false :=
  ⟨at_ fun d => d.setLinkEnd .a { st := .failed, mode := .autonomous, frames := 2 }, .a,
   by decide,
   by decide⟩

theorem witness_bell_line_frames_1 : ∃ (s : State) (h : Half) (bin : Nat),
    s.dev.pins.porstLow = false ∧
    ((s.dev.linkEnd h).bell = true) ∧
    s.dev.apart = true ∧
    bin < 2 ^ 32 :=
  ⟨at_ fun d => (d.setLinkEnd .a { st := .failed, mode := .split, bell := true, agreed := true }).setLinkEnd .b { st := .failed, mode := .split, bell := true, agreed := true }, .a, 1,
   by decide,
   by decide,
   by decide,
   by decide⟩

theorem witness_bell_line_frames_2 : ∃ (s : State) (h : Half) (payload : List Byte),
    s.dev.pins.porstLow = false ∧
    s.dev.bellUp = true ∧
    s.dev.storeOverBell = true ∧
    1 ≤ payload.length ∧
    payload.length ≤ 255 :=
  ⟨at_ fun d => { (d.setLinkEnd .a { st := .failed, mode := .split, bell := true, agreed := true }).setLinkEnd .b { st := .failed, mode := .split, bell := true, agreed := true } with nvm := { st := .writing } }, .b, [1#8],
   by decide,
   by decide,
   by decide,
   by decide,
   by decide⟩

theorem witness_bell_line_frames_3 : ∃ (s : State) (h : Half) (payload : Byte),
    s.dev.pins.porstLow = false ∧
    ((s.dev.linkEnd h).bell = true) ∧
    s.dev.link.bell.retrain = some h.other ∧
    (s.dev.isOn (linkPart h) = true) :=
  ⟨at_ fun d => { d.setLinkEnd .b { st := .failed, mode := .split, bell := true } with link := { (d.setLinkEnd .b { st := .failed, mode := .split, bell := true }).link with bell := { retrain := some .a } } }, .b, 0#8,
   by decide,
   by decide,
   by decide,
   by decide⟩

theorem witness_bell_line_frames_4 : ∃ (s : State) (h : Half),
    ((s.dev.linkEnd h).bell = true) ∧
    s.dev.pins.porstLow = false :=
  ⟨at_ fun d => (d.setLinkEnd .a { st := .failed, mode := .split, bell := true, agreed := true }).setLinkEnd .b { st := .failed, mode := .split, bell := true, agreed := true }, .a,
   by decide,
   by decide⟩

theorem witness_cold_reset_and_boot_1 : ∃ (s : State) (st : Straps) (bell : Bool),
    s.dev.pins.porstLow = true :=
  ⟨State.reset, ⟨1#2, false⟩, true,
   by decide⟩

theorem witness_warm_and_half_resets_0 : ∃ (s : State),
    s.dev.pins.porstLow = false :=
  ⟨at_ fun d => d,
   by decide⟩

theorem witness_warm_and_half_resets_1 : ∃ (s : State),
    s.dev.awake = true :=
  ⟨at_ fun d => d,
   by decide⟩

theorem witness_warm_and_half_resets_2 : ∃ (s : State) (h : Half),
    s.dev.pins.porstLow = false :=
  ⟨at_ fun d => d, .b,
   by decide⟩

theorem witness_warm_and_half_resets_3 : ∃ (s : State),
    s.dev.awake = true ∧
    s.dev.txn.held = [] :=
  ⟨at_ fun d => d,
   by decide,
   by decide⟩

theorem witness_warm_and_half_resets_4 : ∃ (s : State),
    s.dev.awake = true ∧
    s.dev.txn.held = [] :=
  ⟨at_ fun d => d,
   by decide,
   by decide⟩

theorem witness_pcie_resets_dormant_and_wake_0 : ∃ (s : State) (h : Half),
    s.dev.pins.porstLow = false ∧
    s.dev.txn.held = [] :=
  ⟨at_ fun d => d.setQueue 8 { st := .active }, .a,
   by decide,
   by decide⟩

theorem witness_pcie_resets_dormant_and_wake_1 : ∃ (s : State) (h : Half),
    s.dev.power.dormant = false :=
  ⟨at_ fun d => d, .b,
   by decide⟩

theorem witness_pcie_resets_dormant_and_wake_2 : ∃ (s : State),
    s.dev.awake = true ∧
    s.dev.busySlots = [] :=
  ⟨at_ fun d => d,
   by decide,
   by decide⟩

theorem witness_pcie_resets_dormant_and_wake_3 : ∃ (s : State),
    s.dev.power.dormant = true ∧
    s.dev.pins.porstLow = false ∧
    (bit (s.dev.reg .a pdmP 0x8C) 0 = true) :=
  ⟨at_ fun d => { d with power := { d.power with dormant := true } },
   by decide,
   by decide,
   by decide⟩

theorem witness_vin_thresholds_0 : ∃ (s : State) (h : Half) (v1 v2 v3 v4 : Volt),
    s.dev.pins.porstLow = false ∧
    s.dev.power.plan = [] ∧
    (∀ v ∈ [v1, v2, v3, v4], 2150 * mV < v) :=
  ⟨at_ fun d => { d with pins := { d.pins with vinReleased := [] } }, .a, (2150 * mV + 1), (2150 * mV + 1), (2150 * mV + 1), (2150 * mV + 1),
   by decide,
   by decide,
   by decide⟩

theorem witness_vin_thresholds_1 : ∃ (s : State) (h : Half) (v1 v2 v3 v4 : Volt),
    s.dev.pins.porstLow = false ∧
    s.dev.power.plan = [] ∧
    (s.dev.vinOk h = true) ∧
    s.dev.txn.held = [] ∧
    (∀ v ∈ [v1, v2, v3, v4], v < 2050 * mV) :=
  ⟨at_ fun d => d, .b, (2050 * mV - 1), (2050 * mV - 1), (2050 * mV - 1), (2050 * mV - 1),
   by decide,
   by decide,
   by decide,
   by decide,
   by decide⟩

theorem witness_vin_thresholds_2 : ∃ (s : State) (h : Half) (v1 v2 v3 v4 : Volt),
    s.dev.pins.porstLow = false ∧
    (∀ v ∈ [v1, v2, v3, v4], 2600 * mV < v) :=
  ⟨at_ fun d => d, .b, (2600 * mV + 1), (2600 * mV + 1), (2600 * mV + 1), (2600 * mV + 1),
   by decide,
   by decide⟩

theorem witness_vin_thresholds_3 : ∃ (s : State) (h : Half) (v1 v2 v3 v4 : Volt),
    s.dev.pins.porstLow = false ∧
    (∀ v ∈ [v1, v2, v3, v4], 2700 * mV < v) :=
  ⟨at_ fun d => d.setCluster 40 { st := .active }, .b, (2700 * mV + 1), (2700 * mV + 1), (2700 * mV + 1), (2700 * mV + 1),
   by decide,
   by decide⟩

theorem witness_domain_commands_0 : ∃ (s : State) (i : Fin 8) (c : Instr) (cmd : Nat),
    s.dev.awake = true ∧
    s.dev.apart = false ∧
    (s.dev.commandOk i cmd = true) ∧
    s.dev.txn.held = [] ∧
    (cmd = 2 ∨ cmd = 3 → s.dev.maskAllows (partHalf ((domainParts i).headD 0)) i = true) ∧
    ((c = .dcmdOff i ∧ cmd = 1) ∨ (c = .dcmdRetain i ∧ cmd = 2) ∨ (c = .dcmdOn i ∧ cmd = 3) ∨ (c = .dcmdReset i ∧ cmd = 4)) ∧
    (∀ k ∈ domainParts i, (s.dev.part k).st = .on ↔ cmd ≠ 3) :=
  ⟨at_ fun d => d, 0, (.dcmdOff 0), 1,
   by decide,
   by decide,
   by decide,
   by decide,
   by decide,
   by decide,
   by decide⟩

theorem witness_sequence_steps_0 : ∃ (s : State) (k : Fin 10) (m : StartMeas),
    s.dev.power.plan = [] ∧
    s.dev.power.group = [] :=
  ⟨at_ fun d => d.setPart 2 { st := .up, step := 1 }, 2, { remote := [], loc := [], vin := 3000000000 },
   by decide,
   by decide⟩

theorem witness_sequence_steps_1 : ∃ (s : State) (k : Fin 10) (reason : Byte),
    s.dev.power.plan = [] ∧
    s.dev.power.group = [] ∧
    ((s.dev.part k).st = .up) ∧
    (s.dev.canMiss k reason.toNat = true) :=
  ⟨at_ fun d => d.setPart 0 { st := .up, step := 1 }, 0, 1#8,
   by decide,
   by decide,
   by decide,
   by decide⟩

theorem witness_cold_inhibit_and_self_warm_0 : ∃ (s : State) (h : Half),
    (s.dev.inhibited h = true) ∧
    20 ≤ (s.dev.therm h).inhibitRun ∧
    s.dev.awake = true :=
  ⟨at_ fun d => d.setTherm .a { inhibit := true, inhibitRun := 20 }, .a,
   by decide,
   by decide,
   by decide⟩

theorem witness_cold_inhibit_and_self_warm_1 : ∃ (s : State) (h : Half),
    s.dev.awake = true ∧
    (s.dev.inhibited h = true) ∧
    (bit (s.dev.reg .a pdmP 0x88) 0 = true) ∧
    ((s.dev.part (corePart h)).st = .off ∨ (s.dev.part (corePart h)).st = .inhibited) ∧
    (s.dev.warming h = false) ∧
    s.dev.pins.tripLatch = false ∧
    (s.dev.vinOk h = true) ∧
    (s.dev.maskAllows h (partDomain (corePart h)) = true) ∧
    ((s.dev.canary h).safe = false) ∧
    (tget false s.dev.power.warmDone h.idx = false) :=
  ⟨at_ fun d => ((d.setTherm .a { inhibit := true }).setPart 0 { st := .inhibited }).setReg .a pdmP 0x88 0x02583C01#32, .a,
   by decide,
   by decide,
   by decide,
   by decide,
   by decide,
   by decide,
   by decide,
   by decide,
   by decide,
   by decide⟩

theorem witness_cold_inhibit_and_self_warm_2 : ∃ (s : State) (h : Half),
    s.dev.awake = true ∧
    (s.dev.warming h = true) :=
  ⟨at_ fun d => { d with power := { d.power with selfwarm := [(0, true)] } }, .a,
   by decide,
   by decide⟩

theorem witness_inner_sample_measures_0 : ∃ (s : State) (n : Fin 72) (m : InnerMeas),
    (s.dev.clusterActive n = true) :=
  ⟨at_ fun d => d.setCluster 3 { st := .active, cells := [(0, { st := .active })] }, 3, ⟨900000000, 900000000, 2400000000, [5]⟩,
   by decide⟩

theorem witness_inner_sample_measures_1 : ∃ (s : State) (n : Fin 72) (m : InnerMeas),
    (s.dev.clusterActive n = false) :=
  ⟨at_ fun d => d, 3, ⟨0, 0, 0, []⟩,
   by decide⟩

theorem witness_slewing_0 : ∃ (fu rate : Nat) (vref target : Volt),
    vref ≤ target :=
  ⟨80, 16, 5, 9,
   by decide⟩

theorem witness_slewing_1 : ∃ (fu rate : Nat) (vref target : Volt),
    target ≤ vref :=
  ⟨80, 16, 9, 5,
   by decide⟩

theorem witness_slewing_2 : ∃ (s : State) (n : Fin 72) (x : Cluster),
    x = s.dev.cluster n ∧
    x.slew.busy = true ∧
    x.vref = x.target ∧
    16 ≤ x.settle :=
  ⟨at_ fun d => d.setCluster 3 { slew := { busy := true }, settle := 16 }, 3, { slew := { busy := true }, settle := 16 },
   by decide,
   by decide,
   by decide,
   by decide⟩

theorem witness_slewing_3 : ∃ (s : State) (n : Fin 72) (x : Cluster),
    x = s.dev.cluster n ∧
    x.slew.busy = true ∧
    x.vref = x.target ∧
    x.settle < 16 ∧
    (fld (s.dev.reg .a (ralP (railOf n)) 0x50) 15 8 * 10 * s.dev.fswUnits (syncOf n) ≤ x.reached * 64) :=
  ⟨at_ fun d => d.setCluster 3 { slew := { busy := true }, reached := 100000 }, 3, { slew := { busy := true }, reached := 100000 },
   by decide,
   by decide,
   by decide,
   by decide,
   by decide⟩

theorem witness_outer_sample_reads_sense_0 : ∃ (s : State) (r : Fin 12) (m : OuterMeas),
    m.wellFormed = true :=
  ⟨at_ fun d => d.setCluster 3 { st := .active, current := 7 }, 0, ⟨[1, 2, 3, 4], 0⟩,
   by decide⟩

theorem witness_trim_rotation_plausibility_0 : ∃ (s : State) (n : Fin 72) (c : Fin 8),
    (((s.dev.cluster n).cell c).clamped = 256) :=
  ⟨at_ fun d => d.setCluster 3 { cells := [(7, { clamped := 256 })] }, 3, 7,
   by decide⟩

theorem witness_trim_rotation_plausibility_1 : ∃ (s : State) (n : Fin 72) (x : Cluster),
    x = s.dev.cluster n ∧
    x.st = .active ∧
    x.rotDue = false ∧
    (s.dev.rotPeriod n < x.rotAge + 8) :=
  ⟨at_ fun d => d.setCluster 71 { st := .active, rot := 7, rotAge := 100000 }, 71, { st := .active, rot := 7, rotAge := 100000 },
   by decide,
   by decide,
   by decide,
   by decide⟩

theorem witness_trim_rotation_plausibility_2 : ∃ (s : State) (n : Fin 72),
    32 ≤ (s.dev.cluster n).plaus :=
  ⟨at_ fun d => d.setCluster 3 { plaus := 32 }, 3,
   by decide⟩

theorem witness_sync_groups_0 : ∃ (s : State) (g : Fin 4) (periods : List Nat),
    s.dev.pins.porstLow = false ∧
    (s.dev.cp .a clkP (0x60 + 4 * g.val) / 64 % 4 = 1) ∧
    periods.length = 16 ∧
    (∀ p ∈ periods, periodFits (s.dev.fswUnits g) p = true) ∧
    ((s.dev.sync g).st = .free ∨ (s.dev.sync g).st = .gliding) :=
  ⟨at_ fun d => d.setReg .a clkP 0x60 (cpWord 0x3C50), 0, (List.replicate 16 80000),
   by decide,
   by decide,
   by decide,
   by decide,
   by decide⟩

theorem witness_sync_groups_1 : ∃ (s : State) (g : Fin 4) (freq : Nat),
    s.dev.pins.porstLow = false ∧
    ((s.dev.sync g).st = .acquiring) :=
  ⟨at_ fun d => d.setSync 3 { st := .acquiring }, 3, 12500000,
   by decide,
   by decide⟩

theorem witness_sync_groups_2 : ∃ (s : State) (g : Fin 4),
    ((s.dev.sync g).st = .locked) :=
  ⟨at_ fun d => d.setSync 3 { st := .locked }, 3,
   by decide⟩

theorem witness_sync_groups_3 : ∃ (s : State) (g : Fin 4),
    ((s.dev.sync g).st = .gliding) :=
  ⟨at_ fun d => d.setSync 3 { st := .gliding }, 3,
   by decide⟩

theorem witness_sense_points_and_follow_0 : ∃ (s : State) (r : Fin 12) (k : Fin 4),
    ((s.dev.senseSel r).contains k.val = true) ∧
    16 ≤ tget 0 (s.dev.rail r).senseOut k ∧
    (tget false (s.dev.rail r).senseBad k = false) :=
  ⟨at_ fun d => d.setRail 2 { senseOut := [(0, 16)] }, 2, 0,
   by decide,
   by decide,
   by decide⟩

theorem witness_sense_points_and_follow_1 : ∃ (s : State) (r : Fin 12) (k : Fin 4),
    (tget false (s.dev.rail r).senseBad k = true) ∧
    16 ≤ tget 0 (s.dev.rail r).senseIn k :=
  ⟨at_ fun d => d.setRail 2 { senseBad := [(3, true)], senseIn := [(3, 16)] }, 2, 3,
   by decide,
   by decide⟩

theorem witness_sense_points_and_follow_2 : ∃ (s : State) (r : Fin 12) (high period : Nat),
    (s.dev.ral r 0xA0 % 8 < 2) ∧
    4000 ≤ period ∧
    period ≤ 40000 ∧
    high ≤ period :=
  ⟨at_ fun d => d, 2, 40000, 40000,
   by decide,
   by decide,
   by decide,
   by decide⟩

theorem witness_sense_points_and_follow_3 : ∃ (s : State) (r : Fin 12) (f : Follow) (t : W64),
    f = (s.dev.rail r).follow ∧
    f.holding = false ∧
    (s.dev.ral r 0xA0 % 8 ≠ 2) ∧
    ((4 ≤ f.invalid ∧ t = s.dev.tb (ralHalf r)) ∨ (f.invalid < 4 ∧ f.periods ≠ [] ∧ t = f.lastEdge + BitVec.ofNat 64 ((4 * (f.periods.sum / f.periods.length) + 39) / 40)) ∨ (f.invalid < 4 ∧ f.periods = [] ∧ f.selecting = true ∧ t = f.since + 4000#64)) :=
  ⟨at_ fun d => d.setRail 2 { follow := { invalid := 4 } }, 2, { invalid := 4 }, 0#64,
   by decide,
   by decide,
   by decide,
   by decide⟩

theorem witness_sense_points_and_follow_4 : ∃ (s : State) (r : Fin 12),
    ((s.dev.rail r).follow.holding = true ∨ (s.dev.rail r).follow.selecting = true) ∧
    4 ≤ (s.dev.rail r).follow.valid :=
  ⟨at_ fun d => d.setRail 2 { follow := { holding := true, valid := 4 } }, 2,
   by decide,
   by decide⟩

theorem witness_capture_buffer_0 : ∃ (s : State) (m : Master) (n : Fin 72) (dec : Byte) (trig : BitVec 2),
    passes s.dev m (lpeP n) 0x140 ∧
    ((s.dev.capture (cluHalf n)).owner = none) :=
  ⟨at_ fun d => d, .hosta, 71, 2#8, 1#2,
   by decide,
   by decide⟩

theorem witness_capture_buffer_1 : ∃ (s : State) (m : Master) (n : Fin 72),
    passes s.dev m (lpeP n) 0x140 ∧
    ((s.dev.capture (cluHalf n)).owner = some n.val) :=
  ⟨at_ fun d => d.setCapture .a { owner := some 3, st := .full }, .hosta, 3,
   by decide,
   by decide⟩

theorem witness_capture_buffer_2 : ∃ (s : State) (m : Master) (n : Fin 72),
    passes s.dev m (lpeP n) 0x140 ∧
    ((s.dev.capture (cluHalf n)).owner = some n.val) ∧
    ((s.dev.capture (cluHalf n)).st ≠ .idle) :=
  ⟨at_ fun d => d.setCapture .a { owner := some 3, st := .armed }, .hosta, 3,
   by decide,
   by decide,
   by decide⟩

theorem witness_capture_buffer_3 : ∃ (s : State) (n : Fin 72),
    ((s.dev.capture (cluHalf n)).owner = some n.val) ∧
    ((s.dev.capture (cluHalf n)).st = .armed) ∧
    (fld (s.dev.reg .a (lpeP n) 0x140) 4 3 ≠ 3) ∧
    (fld (s.dev.reg .a (lpeP n) 0x140) 4 3 = 0 → (s.dev.engine n).injecting = true) ∧
    (fld (s.dev.reg .a (lpeP n) 0x140) 4 3 = 2 → (s.dev.capture (cluHalf n)).seen = true) :=
  ⟨at_ fun d => (d.setCapture .a { owner := some 3, st := .armed }).setReg .a (lpeP 3) 0x140 8#32, 3,
   by decide,
   by decide,
   by decide,
   by decide,
   by decide⟩

theorem witness_capture_buffer_4 : ∃ (s : State) (n : Fin 72),
    ((s.dev.capture (cluHalf n)).owner = some n.val) ∧
    ((s.dev.capture (cluHalf n)).st = .running) ∧
    4096 ≤ (s.dev.capture (cluHalf n)).samples.length :=
  ⟨at_ fun d => d.setCapture .a { owner := some 3, st := .running, samples := List.replicate 4096 ⟨0#32, 0#32, 0#32, 0#32⟩ }, 3,
   by decide,
   by decide,
   (List.length_replicate (n := 4096)).ge⟩

theorem witness_capture_buffer_5 : ∃ (s : State) (m : Master) (n : Fin 72),
    arrives s.dev m ∧
    (s.dev.farPage m (lpeP n) = false) :=
  ⟨at_ fun d => d.setReg .a (lpeP 3) 0x148 0xFFF#32, .hostb, 3,
   by decide,
   by decide⟩

theorem witness_cell_current_protection_0 : ∃ (s : State) (n : Fin 72) (c : Fin 8) (i : MilliAmp) (period : Nat),
    (((s.dev.cluster n).cell c).st = .active) ∧
    (exceeds i (s.dev.foldLimit n) (s.dev.halfRipple n) = true) ∧
    (((s.dev.cluster n).cell c).lastLimit ≠ some period) :=
  ⟨at_ fun d => d.setCluster 3 { st := .active, cells := [(7, { st := .active, limitRun := 3, lastLimit := some 8 })] }, 3, 7, 1000000, 9,
   by decide,
   by decide,
   by decide⟩

theorem witness_cell_current_protection_1 : ∃ (s : State) (n : Fin 72) (c : Fin 8) (p : Nat),
    s.dev.txn.held = [] ∧
    (((s.dev.cluster n).cell c).st = .active) ∧
    (((s.dev.cluster n).cell c).reached64 = some p) ∧
    64 ≤ ((s.dev.cluster n).cell c).limitRun ∧
    (∀ k < 8, k ≠ c.val → ((s.dev.cluster n).cell k).reached64.any (within4 p) = false) ∧
    (∃ k, k ≠ c.val ∧ k ∈ s.dev.available n) :=
  ⟨at_ fun d => d.setCluster 3 { st := .active, cells := [(0, { st := .active }), (7, { st := .active, limitRun := 64, reached64 := some 9 })] }, 3, 7, 9,
   by decide,
   by decide,
   by decide,
   by decide,
   by decide,
   ⟨0, by decide⟩⟩

theorem witness_cell_current_protection_2 : ∃ (s : State) (n : Fin 72) (c : Fin 8) (i : MilliAmp) (period : Nat),
    (((s.dev.cluster n).cell c).st = .active) ∧
    s.dev.txn.held = [] ∧
    (exceeds i (2 * (s.dev.ilim n : Int), 1) (s.dev.halfRipple n) = true) ∧
    (((s.dev.cluster n).cell c).lastHard = none) ∧
    (∀ k < 8, k ≠ c.val → ((s.dev.cluster n).cell k).lastHard.any (within4 period) = false) :=
  ⟨at_ fun d => d.setCluster 3 { st := .active, cells := [(7, { st := .active })] }, 3, 7, 1000000, 9,
   by decide,
   by decide,
   by decide,
   by decide,
   by decide⟩

theorem witness_brake_and_voltage_protection_0 : ∃ (s : State) (n : Fin 72) (x : Cluster),
    x = s.dev.cluster n ∧
    x.st = .active ∧
    (s.dev.brakeMode n = true) ∧
    ((s.dev.engineCfg n).manual = false) ∧
    x.seq = false ∧
    2 ≤ x.prot.brakeRun ∧
    x.prot.brakeHold = 0 ∧
    x.prot.brake = false ∧
    x.prot.crowbar = false :=
  ⟨at_ fun d => d.setCluster 3 { st := .active, prot := { brakeRun := 2 } }, 3, { st := .active, prot := { brakeRun := 2 } },
   by decide,
   by decide,
   by decide,
   by decide,
   by decide,
   by decide,
   by decide,
   by decide,
   by decide⟩

theorem witness_brake_and_voltage_protection_1 : ∃ (s : State) (n : Fin 72) (x : Cluster),
    x = s.dev.cluster n ∧
    x.prot.brake = true ∧
    (x.prot.brakeEase = true ∨ 16 ≤ x.prot.brakeAge) :=
  ⟨at_ fun d => d.setCluster 3 { st := .active, prot := { brake := true, brakeAge := 16 } }, 3, { st := .active, prot := { brake := true, brakeAge := 16 } },
   by decide,
   by decide,
   by decide⟩

theorem witness_brake_and_voltage_protection_2 : ∃ (s : State) (n : Fin 72) (x : Cluster),
    x = s.dev.cluster n ∧
    x.st = .active ∧
    2 ≤ x.prot.ovRun ∧
    x.prot.crowbar = false :=
  ⟨at_ fun d => d.setCluster 3 { st := .active, prot := { ovRun := 2, brake := true } }, 3, { st := .active, prot := { ovRun := 2, brake := true } },
   by decide,
   by decide,
   by decide,
   by decide⟩

theorem witness_brake_and_voltage_protection_3 : ∃ (s : State) (n : Fin 72) (x : Cluster),
    x = s.dev.cluster n ∧
    x.prot.crowbar = true ∧
    x.prot.ovRepeat = false ∧
    s.dev.txn.held = [] ∧
    x.loc ≤ s.dev.judgeRef n ∧
    (x.prot.fallback = true ∨ x.remote ≤ s.dev.judgeRef n) :=
  ⟨at_ fun d => d.setCluster 3 { st := .active, prot := { crowbar := true } }, 3, { st := .active, prot := { crowbar := true } },
   by decide,
   by decide,
   by decide,
   by decide,
   by decide,
   by decide⟩

theorem witness_brake_and_voltage_protection_4 : ∃ (s : State) (n : Fin 72) (x : Cluster),
    x = s.dev.cluster n ∧
    x.st = .active ∧
    16 ≤ x.prot.uvRun ∧
    x.prot.uv = false :=
  ⟨at_ fun d => d.setCluster 3 { st := .active, prot := { uvRun := 16 } }, 3, { st := .active, prot := { uvRun := 16 } },
   by decide,
   by decide,
   by decide,
   by decide⟩

theorem witness_brake_and_voltage_protection_5 : ∃ (s : State) (n : Fin 72) (x : Cluster),
    x = s.dev.cluster n ∧
    x.st = .active ∧
    (4 ≤ x.prot.senseRun1 ∨ 8 ≤ x.prot.senseRun2) ∧
    x.prot.fallback = false :=
  ⟨at_ fun d => d.setCluster 3 { st := .active, vref := 5, prot := { senseRun1 := 4 } }, 3, { st := .active, vref := 5, prot := { senseRun1 := 4 } },
   by decide,
   by decide,
   by decide,
   by decide⟩

theorem witness_governor_time_0 : ∃ (s : State) (h : Half) (k : Fin 32) (target cycles : Nat),
    (((s.dev.gov h).spender k).lull = some (target, cycles)) ∧
    200 ≤ cycles :=
  ⟨at_ fun d => d.modSpender .b 5 fun x => { x with level := 9, lull := some (4, 200) }, .b, 5, 4, 200,
   by decide,
   by decide⟩

theorem witness_governor_time_1 : ∃ (s : State) (h : Half),
    s.dev.pins.porstLow = false ∧
    (h = .b → s.dev.time.slew = 0) ∧
    (∀ l ∈ s.dev.usedSlots, (s.dev.lode l).stepping = false) :=
  ⟨at_ fun d => d.modSpender .a 3 fun x => { x with level := 7 }, .a,
   by decide,
   by decide,
   by decide⟩

theorem witness_governor_time_2 : ∃ (s : State),
    s.dev.pins.porstLow = false ∧
    s.dev.apart = false ∧
    (s.dev.time.tbB.toNat + 100000 < 2 ^ 64) ∧
    s.dev.time.tbA.toNat ≤ s.dev.time.tbB.toNat ∧
    s.dev.time.slew = 0 :=
  ⟨at_ fun d => d,
   by decide,
   by decide,
   by decide,
   by decide,
   by decide⟩

theorem witness_frequency_changes_0 : ∃ (s : State) (h : Half) (g : Governor),
    g = s.dev.gov h ∧
    (s.dev.fTarget h ≠ g.fT) ∧
    ((s.dev.part (corePart h)).st = .on) ∧
    ((s.dev.canary h).safe = false) ∧
    g.locking = none :=
  ⟨at_ fun d => ({ d with regs := [(regKey .a (govP .a) 0x20C, cpWord 320)] }).setGov .a { powerCap := 3, fT := 5 }, .a, { powerCap := 3, fT := 5 },
   by decide,
   by decide,
   by decide,
   by decide,
   by decide⟩

theorem witness_frequency_changes_1 : ∃ (s : State) (h : Half) (f : Nat) (g : Governor),
    g = s.dev.gov h ∧
    (s.dev.fTarget h ≠ g.fT) ∧
    ((s.dev.part (corePart h)).st = .on) ∧
    ((s.dev.canary h).safe = false) ∧
    g.locking.isSome = true ∧
    g.waiting.isSome = true ∧
    (s.dev.selectable h (s.dev.fTarget h) = some f) :=
  ⟨at_ fun d => ({ d with regs := [(regKey .a (govP .b) 0x20C, cpWord 320)] }).setGov .b { powerCap := 3, fT := 5, locking := some 7, waiting := some 3 }, .b, 3, { powerCap := 3, fT := 5, locking := some 7, waiting := some 3 },
   by decide,
   by decide,
   by decide,
   by decide,
   by decide,
   by decide,
   by decide⟩

theorem witness_frequency_changes_2 : ∃ (s : State) (h : Half) (f : Nat) (g : Governor),
    g = s.dev.gov h ∧
    g.locking = some f ∧
    g.waitSlew = none ∧
    g.waiting = none :=
  ⟨at_ fun d => d.setGov .b { active := 7, locking := some 7 }, .b, 7, { active := 7, locking := some 7 },
   by decide,
   by decide,
   by decide,
   by decide⟩

theorem witness_frequency_changes_3 : ∃ (s : State) (h : Half) (f : Nat) (g : Governor),
    g = s.dev.gov h ∧
    g.waitSlew = some f ∧
    g.waiting = none ∧
    (s.dev.slewReady h f = true) :=
  ⟨at_ fun d => (d.setGov .b { locking := some 7, waitSlew := some 7 }).setRail 6 { slew := { done := true }, follow := { code := 511 } }, .b, 7, { locking := some 7, waitSlew := some 7 },
   by decide,
   by decide,
   by decide,
   by simp only [Device.slewReady, Bool.and_eq_true, decide_eq_true_eq]; exact ⟨by decide, Nat.le_of_lt_succ (Nat.mod_lt _ (by decide))⟩⟩

theorem witness_frequency_changes_4 : ∃ (s : State) (h : Half) (f : Nat) (g : Governor),
    g = s.dev.gov h ∧
    g.locking = some f ∧
    g.waitSlew = none :=
  ⟨at_ fun d => d.setGov .b { locking := some 7 }, .b, 7, { locking := some 7 },
   by decide,
   by decide,
   by decide⟩

theorem witness_thermal_sensing_0 : ∃ (s : State) (h : Half) (counts : List Nat),
    s.dev.pins.porstLow = false ∧
    s.dev.pins.tripLatch = false ∧
    s.dev.txn.held = [] :=
  ⟨at_ fun d => d, .b, [5],
   by decide,
   by decide,
   by decide⟩

theorem witness_thermal_sensing_1 : ∃ (s : State) (h : Half) (i : Fin 60),
    3 ≤ (s.dev.sensor h i).bad ∧
    ((s.dev.sensor h i).invalid = false) :=
  ⟨at_ fun d => d.modSensor .b 59 fun x => { x with bad := 3 }, .b, 59,
   by decide,
   by decide⟩

theorem witness_thermal_sensing_2 : ∃ (s : State) (h : Half) (i : Fin 60),
    ((s.dev.sensor h i).invalid = true) ∧
    20 ≤ (s.dev.sensor h i).good :=
  ⟨at_ fun d => d.modSensor .b 59 fun x => { x with invalid := true, good := 20 }, .b, 59,
   by decide,
   by decide⟩

theorem witness_ops_fire_and_wait_0 : ∃ (s : State) (k : Fin 56) (ecc : Ecc) (l : Nat) (o : OpWord),
    opFires s.dev k 0x01 l o :=
  ⟨opAt (anOp 0x0111#16 0#16 2#16 0xFFFF#16) 4 4, 30, .clean, 2, (anOp 0x0111#16 0#16 2#16 0xFFFF#16),
   by decide⟩

theorem witness_ops_fire_and_wait_1 : ∃ (s : State) (k : Fin 56) (ecc : Ecc) (l : Nat) (o : OpWord),
    opFires s.dev k 0x02 l o :=
  ⟨opAt (anOp 0x0255#16 0xFFFF#16 0xFFFF#16 1#16) 4 4, 30, .corrected, 2, (anOp 0x0255#16 0xFFFF#16 0xFFFF#16 1#16),
   by decide⟩

theorem witness_ops_fire_and_wait_2 : ∃ (s : State) (k : Fin 56) (ecc : Ecc) (l : Nat) (o : OpWord),
    opFires s.dev k 0x10 l o :=
  ⟨opAt (anOp 0x1055#16 0#16 2#16 1#16) 4 4, 30, .uncorrectable, 2, (anOp 0x1055#16 0#16 2#16 1#16),
   by decide⟩

theorem witness_ops_fire_and_wait_3 : ∃ (s : State) (k : Fin 56) (ecc : Ecc) (l : Nat) (o : OpWord),
    opFires s.dev k 0x11 l o :=
  ⟨opAt (anOp 0x1155#16 0#16 2#16 1#16) 4 4, 30, .clean, 2, (anOp 0x1155#16 0#16 2#16 1#16),
   by decide⟩

theorem witness_ops_fire_and_wait_4 : ∃ (s : State) (k : Fin 56) (ecc : Ecc) (l : Nat) (o : OpWord),
    opFires s.dev k 0x12 l o :=
  ⟨opAt (anOp 0x1255#16 0#16 2#16 1#16) 4 4, 30, .corrected, 2, (anOp 0x1255#16 0#16 2#16 1#16),
   by decide⟩

theorem witness_ops_fire_and_wait_5 : ∃ (s : State) (k : Fin 56) (ecc : Ecc) (l : Nat) (o : OpWord),
    opFires s.dev k 0x13 l o :=
  ⟨opAt (anOp 0x1355#16 0#16 2#16 1#16) 4 4, 30, .uncorrectable, 2, (anOp 0x1355#16 0#16 2#16 1#16),
   by decide⟩

theorem witness_ops_fire_and_wait_6 : ∃ (s : State) (k : Fin 56) (ecc : Ecc) (l : Nat) (o : OpWord),
    opFires s.dev k 0x14 l o :=
  ⟨opAt (anOp 0x1455#16 0#16 2#16 1#16) 4 4, 30, .clean, 2, (anOp 0x1455#16 0#16 2#16 1#16),
   by decide⟩

theorem witness_ops_fire_and_wait_7 : ∃ (s : State) (k : Fin 56) (ecc : Ecc) (l : Nat) (o : OpWord),
    opFires s.dev k 0x15 l o :=
  ⟨opAt (anOp 0x1555#16 0#16 2#16 1#16) 4 4, 30, .corrected, 2, (anOp 0x1555#16 0#16 2#16 1#16),
   by decide⟩

theorem witness_ops_fire_and_wait_8 : ∃ (s : State) (k : Fin 56) (ecc : Ecc) (l : Nat) (o : OpWord),
    opFires s.dev k 0x16 l o :=
  ⟨opAt (anOp 0x1655#16 0#16 2#16 1#16) 4 4, 30, .uncorrectable, 2, (anOp 0x1655#16 0#16 2#16 1#16),
   by decide⟩

theorem witness_ops_fire_and_wait_9 : ∃ (s : State) (k : Fin 56) (ecc : Ecc) (l : Nat) (o : OpWord),
    opFires s.dev k 0x17 l o :=
  ⟨opAt (anOp 0x1755#16 0#16 0xFFFF#16 1#16) 4 4, 30, .clean, 2, (anOp 0x1755#16 0#16 0xFFFF#16 1#16),
   by decide⟩

theorem witness_ops_fire_and_wait_10 : ∃ (s : State) (k : Fin 56) (ecc : Ecc) (l : Nat) (o : OpWord),
    opFires s.dev k 0x18 l o :=
  ⟨opAt (anOp 0x1855#16 0#16 0xFFFF#16 1#16) 4 4, 30, .corrected, 2, (anOp 0x1855#16 0#16 0xFFFF#16 1#16),
   by decide⟩

theorem witness_ops_fire_and_wait_11 : ∃ (s : State) (k : Fin 56) (ecc : Ecc) (l : Nat) (o : OpWord),
    opFires s.dev k 0x19 l o :=
  ⟨opAt (anOp 0x1955#16 0#16 0xFFFF#16 1#16) 4 4, 30, .uncorrectable, 2, (anOp 0x1955#16 0#16 0xFFFF#16 1#16),
   by decide⟩

theorem witness_ops_fire_and_wait_12 : ∃ (s : State) (k : Fin 56) (ecc : Ecc) (l : Nat) (o : OpWord),
    opFires s.dev k 0x1A l o :=
  ⟨opAt (anOp 0x1A55#16 0#16 0xFFFF#16 1#16) 4 4, 30, .clean, 2, (anOp 0x1A55#16 0#16 0xFFFF#16 1#16),
   by decide⟩

theorem witness_ops_fire_and_wait_13 : ∃ (s : State) (k : Fin 56) (ecc : Ecc) (l : Nat) (o : OpWord),
    opFires s.dev k 0x1B l o :=
  ⟨opAt (anOp 0x1B55#16 0#16 0xFFFF#16 1#16) 4 4, 30, .corrected, 2, (anOp 0x1B55#16 0#16 0xFFFF#16 1#16),
   by decide⟩

theorem witness_ops_fire_and_wait_14 : ∃ (s : State) (k : Fin 56) (ecc : Ecc) (l : Nat) (o : OpWord),
    opFires s.dev k 0x1C l o :=
  ⟨opAt (anOp 0x1C15#16 0#16 0xFFFF#16 1#16) 4 4, 30, .uncorrectable, 2, (anOp 0x1C15#16 0#16 0xFFFF#16 1#16),
   by decide⟩

theorem witness_ops_fire_and_wait_15 : ∃ (s : State) (k : Fin 56) (ecc : Ecc) (l : Nat) (o : OpWord),
    opFires s.dev k 0x20 l o :=
  ⟨opAt (anOp 0x2055#16 0#16 0xFFFF#16 0xFFFF#16) 4 4, 30, .clean, 2, (anOp 0x2055#16 0#16 0xFFFF#16 0xFFFF#16),
   by decide⟩

theorem witness_ops_fire_and_wait_16 : ∃ (s : State) (c : Instr) (k : Fin 56) (ecc : Ecc) (code l : Nat) (o : OpWord),
    opCommand c k ecc code ∧
    opTurn s.dev k code l o :=
  ⟨opAt (anOp 0x1055#16 0#16 2#16 1#16) 4 0, (.opAdd 30 .clean), 30, .clean, 0x10, 2, (anOp 0x1055#16 0#16 2#16 1#16),
   by simp [opCommand],
   by decide⟩

theorem witness_tiles_tallies_and_scrub_0 : ∃ (s : State) (l : Fin 64) (i : W16) (x : Stream),
    x = (s.dev.lode l).stream i.toNat ∧
    (endType x.producer ≠ 2) ∧
    (endType x.consumer ≠ 2) ∧
    ((∀ k, (s.dev.bay k).firing = false) ∨ endType x.producer = 1) ∧
    x.spaceMsgs ≠ 0 :=
  ⟨at_ fun d => d.setLode 2 { st := .resident, streams := [(3, { producer := 0x1000#16, consumer := 0x0000#16, depth := 4, spaceMsgs := 1, dataMsgs := 2 })] }, 2, 3#16, { producer := 0x1000#16, consumer := 0x0000#16, depth := 4, spaceMsgs := 1, dataMsgs := 2 },
   by decide,
   by decide,
   by decide,
   Or.inr rfl,
   by decide⟩

theorem witness_tiles_tallies_and_scrub_1 : ∃ (s : State) (l : Fin 64) (i : W16) (x : Stream),
    x = (s.dev.lode l).stream i.toNat ∧
    (endType x.producer ≠ 2) ∧
    (endType x.consumer ≠ 2) ∧
    ((∀ k, (s.dev.bay k).firing = false) ∨ endType x.producer = 1) ∧
    x.dataMsgs ≠ 0 :=
  ⟨at_ fun d => d.setLode 2 { st := .resident, streams := [(3, { producer := 0x1000#16, consumer := 0x0000#16, depth := 4, spaceMsgs := 1, dataMsgs := 2 })] }, 2, 3#16, { producer := 0x1000#16, consumer := 0x0000#16, depth := 4, spaceMsgs := 1, dataMsgs := 2 },
   by decide,
   by decide,
   by decide,
   Or.inr rfl,
   by decide⟩

theorem witness_tiles_tallies_and_scrub_2 : ∃ (s : State) (m : Fin 16),
    ((s.dev.mover m).isolated = false) ∧
    ((s.dev.mover m).moving = none) ∧
    (s.dev.isOn (seamPart (moverHalf m)) = true) ∧
    (s.dev.moverWork m ≠ []) ∧
    (∀ w ∈ s.dev.moverWork m, ((s.dev.lode w.1).stream w.2).cross = true → s.dev.apart = false ∧ s.dev.crosscutUp = true) ∧
    (∀ w ∈ s.dev.moverWork m, ∀ n, s.dev.moverLayer w.1 w.2 = some n → (s.dev.draw (moverHalf m) (28 + n) seamCost).1 = true) :=
  ⟨moverAt, 4,
   by decide,
   by decide,
   by decide,
   moverAt_work,
   fun _ _ _ => ⟨by decide, by decide⟩,
   moverAt_draws⟩

theorem witness_tiles_tallies_and_scrub_3 : ∃ (s : State) (m : Fin 16) (l i : Nat) (x : Stream) (t : Tile),
    ((s.dev.mover m).moving = some (l, i)) ∧
    i < 0x10000 ∧
    x = (s.dev.lode l).stream i ∧
    x.flight ≠ 0 ∧
    ((s.dev.lode l).stepping = true) ∧
    t = (s.dev.lode l).memoryTile i { x with begun := x.begun - 1 } ∧
    (∀ u, s.dev.armedFor (moverHalf m) u 0 = none) :=
  ⟨at_ fun d => (d.setLode 2 { st := .resident, stepping := true, streams := [(3, { producer := 0x1000#16, consumer := 0x0000#16, depth := 4, flight := 1, begun := 1 })] }).setMover 4 { moving := some (2, 3) }, 4, 2, 3, { producer := 0x1000#16, consumer := 0x0000#16, depth := 4, flight := 1, begun := 1 }, looseTile 3,
   by decide,
   by decide,
   by decide,
   by decide,
   by decide,
   rfl,
   fun _ => rfl⟩

theorem witness_tiles_tallies_and_scrub_4 : ∃ (s : State) (m : Fin 16),
    ((s.dev.mover m).isolated = false) ∧
    (∃ j < 16, j ≠ m.val ∧ moverHalf j = moverHalf m ∧ (s.dev.mover j).isolated = false) :=
  ⟨at_ fun d => d, 15,
   by decide,
   by decide⟩

theorem witness_tiles_tallies_and_scrub_5 : ∃ (s : State) (h : Half) (c : MemCounts) (d : Device),
    c = s.dev.mem h.idx ∧
    (s.dev.isOn (seamPart h) = true) ∧
    d = s.dev.advanceTo h (c.scrubFrom + BitVec.ofNat 64 ((c.scrubbed + 1) * (fld (s.dev.reg .a (memP h.idx) 0x5C) 7 0 * 360000000000) / 2 ^ 30)) :=
  ⟨at_ fun d => d, .b, {}, live.advanceTo .b (0#64 + BitVec.ofNat 64 (24 * 360000000000 / 2 ^ 30)),
   by decide,
   by decide,
   by decide⟩

theorem witness_steps_repeats_and_hold_0 : ∃ (s : State) (l : Fin 64),
    ((s.dev.lode l).st = .resident) ∧
    ((s.dev.lode l).stepping = false) ∧
    ((s.dev.lode l).repeating = false) :=
  ⟨at_ fun d => d.setLode 2 { st := .resident }, 2,
   by decide,
   by decide,
   by decide⟩

theorem witness_steps_repeats_and_hold_1 : ∃ (s : State) (l : Fin 64),
    ((s.dev.lode l).st = .resident) ∧
    (s.dev.stepComplete l = true) ∧
    ((s.dev.lode l).bays.Nodup) :=
  ⟨at_ fun d => (d.setLode 2 { st := .resident, stepping := true, halves := [.b], programs := [(0, { half := .b, ops := [{ cls := 0x0116#16, engine := 0#8, last := true, a := 0xFFFF#16, b := 0xFFFF#16, out := 0xFFFF#16, acc := 0#16, param := 0#32 }], bay := some 30 })] }).setBay 30 { slot := some 2, done := true }, 2,
   by decide,
   by decide,
   by decide⟩

theorem witness_steps_repeats_and_hold_2 : ∃ (s : State) (l : Fin 64) (lost : Fin 56),
    ((s.dev.bay lost).isolated = true ∨ (s.dev.bay lost).retired = true) ∧
    lost.val ∈ (s.dev.lode l).bays ∧
    ((s.dev.lode l).stepping = true) ∧
    ((s.dev.lode l).repeating = false) ∧
    (((s.dev.abandonStep l).assignBays (s.dev.lode l).programs).any (·.2.bay.isNone) = false) :=
  ⟨at_ fun d => ((d.setLode 2 { st := .resident, stepping := true, halves := [.b], programs := [(0, { half := .b, ops := [{ cls := 0x0116#16, engine := 0#8, last := true, a := 0xFFFF#16, b := 0xFFFF#16, out := 0xFFFF#16, acc := 0#16, param := 0#32 }], bay := some 30 })] }).setBay 31 { slot := some 2 }).setBay 30 { slot := some 2, isolated := true }, 2, 30,
   by decide,
   by decide,
   by decide,
   by decide,
   by decide⟩

theorem witness_steps_repeats_and_hold_3 : ∃ (s : State) (m : Master) (k : Fin 56),
    passes s.dev m (bayP k) 0x40 :=
  ⟨at_ fun d => d, (.ovm 0), 55,
   by decide⟩

theorem witness_stalls_and_lockups_0 : ∃ (s : State) (l : Fin 64) (i : W16) (k : Nat) (x : Stream),
    x = (s.dev.lode l).stream i.toNat ∧
    ((s.dev.lode l).stepping = true) ∧
    (s.dev.stepComplete l = false) ∧
    ((s.dev.lode l).streamNumbers.contains i.toNat = true) ∧
    ((s.dev.lode l).stallBay x = some k) :=
  ⟨at_ fun d => d.setLode 2 { st := .resident, stepping := true, programs := [(0, { half := .b, ops := [], bay := some 30 })], streams := [(3, { producer := 0x1000#16, consumer := 0x0000#16, depth := 4 })] }, 2, 3#16, 30, { producer := 0x1000#16, consumer := 0x0000#16, depth := 4 },
   by decide,
   by decide,
   by decide,
   by decide,
   by decide⟩

theorem witness_stalls_and_lockups_1 : ∃ (s : State) (k : Fin 56),
    (s.dev.bayUsable k = true) ∧
    (s.dev.opHolds k = true) ∧
    ((s.dev.bay k).isolated = false) ∧
    ((s.dev.bay k).retired = false) :=
  ⟨at_ fun d => (d.setLode 2 { st := .resident, stepping := true, halves := [.b], programs := [(0, { half := .b, ops := [{ cls := 0x0116#16, engine := 0#8, last := true, a := 0xFFFF#16, b := 0xFFFF#16, out := 0xFFFF#16, acc := 0#16, param := 0#32 }], bay := some 30 })] }).setBay 30 { slot := some 2 }, 30,
   by decide,
   by decide,
   by decide,
   by decide⟩

theorem witness_window_doorbell_and_rhead_0 : ∃ (s : State) (q : Fin 1024) (off : W16) (bytes : List Byte) (x : Queue) (p : Nat),
    x = s.dev.queue q ∧
    p = x.wb.toNat + off.toNat ∧
    x.st = .active ∧
    x.discard = false ∧
    (arrives s.dev (portMaster (queHalf q))) ∧
    (off.toNat + bytes.length ≤ 0x10000) ∧
    bytes.length ≤ (s.dev.byteLimit q - w32 p).toNat ∧
    ((s.dev.byteLimit q - w32 p).toNat ≤ 2 ^ 31) ∧
    (p % s.dev.queCap q + bytes.length ≤ s.dev.queCap q) ∧
    (tabWf (fun _ => 0#8) x.ring = true) :=
  ⟨at_ fun d => (d.setOvman .a { st := .serving }).setQueue 9 { st := .active, byteLim := 0x8000#32, pktLim := 16#32 }, 9, 64#16, [1#8, 2#8], { st := .active, byteLim := 0x8000#32, pktLim := 16#32 }, 64,
   by decide,
   by decide,
   by decide,
   by decide,
   by decide,
   by decide,
   by decide,
   by decide,
   by decide,
   by decide⟩

theorem witness_window_doorbell_and_rhead_1 : ∃ (s : State) (m : Master) (off : BitVec 24) (q : Fin 1024) (bytes : List Byte) (one poisoned : Bool),
    arrives s.dev m :=
  ⟨at_ fun d => d, .hosta, 0#24, 9, [1#8], true, false,
   by decide⟩

theorem witness_window_doorbell_and_rhead_2 : ∃ (s : State) (m : Master) (q : Fin 1024) (v : W32),
    passes s.dev m (queP q) 0x54 ∧
    (v.toNat % 64 = 0) ∧
    ((v - (s.dev.queue q).rheadV).toNat ≤ ((s.dev.queue q).rtail - (s.dev.queue q).rheadV).toNat) :=
  ⟨at_ fun d => d.setQueue 9 { st := .active, rtail := 128#32 }, .hosta, 9, 128#32,
   by decide,
   by decide,
   by decide⟩

theorem witness_window_doorbell_and_rhead_3 : ∃ (s : State) (m : Master) (q : Fin 1024) (v : W32),
    passes s.dev m (queP q) 0x54 ∧
    (v.toNat % 64 ≠ 0) :=
  ⟨at_ fun d => d, .hosta, 9, 1#32,
   by decide,
   by decide⟩

theorem witness_window_doorbell_and_rhead_4 : ∃ (s : State) (m : Master) (q : Fin 1024) (v : W32) (n : Nat) (x : Queue),
    x = s.dev.queue q ∧
    n = fld v 10 0 ∧
    passes s.dev m (queP q) 0x50 ∧
    1 ≤ n ∧
    n ≤ 1024 ∧
    x.st = .active ∧
    x.discard = false :=
  ⟨at_ fun d => (d.setOvman .a { st := .serving }).setQueue 9 { st := .active, byteLim := 0x8000#32, pktLim := 16#32 }, .hosta, 9, 1#32, 1, { st := .active, byteLim := 0x8000#32, pktLim := 16#32 },
   by decide,
   by decide,
   by decide,
   by decide,
   by decide,
   by decide,
   by decide⟩

theorem witness_window_doorbell_and_rhead_5 : ∃ (s : State) (m : Master) (q : Fin 1024) (v : W32) (n : Nat) (x : Queue),
    x = s.dev.queue q ∧
    n = fld v 10 0 ∧
    passes s.dev m (queP q) 0x50 ∧
    n = 0 ∧
    x.discard = false :=
  ⟨at_ fun d => d, .hosta, 9, 0#32, 0, {},
   by decide,
   by decide,
   by decide,
   by decide,
   by decide⟩

theorem witness_queue_commands_0 : ∃ (s : State) (m : Master) (q : Fin 1024) (x : Queue),
    x = s.dev.queue q ∧
    passes s.dev m (queP q) 0x64 ∧
    x.st = .disabled ∧
    (s.dev.ringBase q ≠ 0#64) ∧
    (s.dev.mailbox q ≠ 0#64) :=
  ⟨at_ fun d => ((d.setReg .a (queP 9) 0x44 0x1000#32).setReg .a (queP 9) 0x58 0x2000#32), .hosta, 9, {},
   by decide,
   by decide,
   by decide,
   by decide,
   by decide⟩

theorem witness_queue_commands_1 : ∃ (s : State) (m : Master) (q : Fin 1024) (x : Queue),
    x = s.dev.queue q ∧
    passes s.dev m (queP q) 0x64 ∧
    x.st = .active ∧
    (s.dev.queueBusy q = false) ∧
    (s.dev.owesAnswer q = false) ∧
    x.out = [] :=
  ⟨at_ fun d => d.setQueue 9 { st := .active }, .hosta, 9, { st := .active },
   by decide,
   by decide,
   by decide,
   by decide,
   by decide,
   by decide⟩

theorem witness_queue_commands_2 : ∃ (s : State) (m : Master) (q : Fin 1024) (x : Queue),
    x = s.dev.queue q ∧
    passes s.dev m (queP q) 0x64 ∧
    x.st ≠ .resetting ∧
    (∀ r ∈ s.dev.service.requests, r.queue = q.val → r.st ≠ .running) :=
  ⟨at_ fun d => d.setQueue 9 { st := .active }, .hosta, 9, { st := .active },
   by decide,
   by decide,
   by decide,
   by decide⟩

theorem witness_queue_commands_3 : ∃ (s : State) (m : Master) (q : Fin 1024) (x : Queue),
    x = s.dev.queue q ∧
    passes s.dev m (queP q) 0x64 ∧
    x.st = .held :=
  ⟨at_ fun d => d.setQueue 9 { st := .held }, .hosta, 9, { st := .held },
   by decide,
   by decide,
   by decide⟩

theorem witness_queue_commands_4 : ∃ (s : State) (m : Master) (q : Fin 1024) (x : Queue),
    x = s.dev.queue q ∧
    passes s.dev m (queP q) 0x64 ∧
    x.st = .active ∧
    x.discard = true :=
  ⟨at_ fun d => d.setQueue 9 { st := .active, discard := true }, .hosta, 9, { st := .active, discard := true },
   by decide,
   by decide,
   by decide,
   by decide⟩

theorem witness_request_and_session_packets_0 : ∃ (s : State) (q : Fin 1024) (p : Packet),
    takes s.dev q 0x01 p ∧
    p.len = 96 + 4 * fieldAt p.bytes 36 4 ∧
    (zerosAt p.bytes 60 4 = true) ∧
    (s.dev.headerFault q p (s.dev.resident p.lode) true = none) ∧
    ((s.dev.apart && s.dev.crossesLink q p.lode) = false) ∧
    (requestOk p (s.dev.lode p.lode).vocab = true) ∧
    (s.dev.haltsLode q p.lode = false) ∧
    (s.dev.resident p.lode = true) ∧
    p.notify = false :=
  ⟨at_ fun d => ((d.setOvman .a { st := .serving }).setQueue 9 { st := .active, inbox := [(packet 1 2 0 (le 4 5 ++ le 4 1 ++ le 24 0 ++ le 32 0 ++ le 4 9))] }).setLode 2 { st := .resident, vocab := 100, halves := [.a] }, 9, (packet 1 2 0 (le 4 5 ++ le 4 1 ++ le 24 0 ++ le 32 0 ++ le 4 9)),
   by decide,
   by decide,
   by decide,
   by decide,
   by decide,
   by decide,
   by decide,
   by decide,
   by decide⟩

theorem witness_request_and_session_packets_1 : ∃ (s : State) (q : Fin 1024) (p : Packet) (r : Request),
    takes s.dev q 0x02 p ∧
    p.len = 48 + 4 * fieldAt p.bytes 36 4 ∧
    (zerosAt p.bytes 40 8 = true) ∧
    (s.dev.findRequest q (w32 (fieldAt p.bytes 32 4)) = some r) ∧
    r.st = .input ∧
    (s.dev.headerFault q p (p.lode == r.lode) (p.session == r.session) = none) ∧
    (tokensBelow (s.dev.lode r.lode).vocab (p.words 48 (fieldAt p.bytes 36 4)) = true) ∧
    p.notify = false :=
  ⟨at_ fun d => (((d.setOvman .a { st := .serving }).setQueue 9 { st := .active, inbox := [(packet 2 2 0 (le 4 3 ++ le 4 1 ++ le 8 0 ++ le 4 9))] }).setLode 2 { st := .resident, vocab := 100, halves := [.a] }).modRequests fun _ => [{ queue := 9, tag := 3#32, st := .input, cls := 1, lode := 2, session := 0#32, maxNew := 4, mode := 0#8, k := 0, p := 0#32, temp := 0#32, seed := 0#64, stops := [], input := [1#32], stream := false, padded := 128 }], 9, (packet 2 2 0 (le 4 3 ++ le 4 1 ++ le 8 0 ++ le 4 9)), { queue := 9, tag := 3#32, st := .input, cls := 1, lode := 2, session := 0#32, maxNew := 4, mode := 0#8, k := 0, p := 0#32, temp := 0#32, seed := 0#64, stops := [], input := [1#32], stream := false, padded := 128 },
   by decide,
   by decide,
   by decide,
   by decide,
   by decide,
   by decide,
   by decide,
   by decide⟩

theorem witness_request_and_session_packets_2 : ∃ (s : State) (q : Fin 1024) (p : Packet) (r : Request),
    takes s.dev q 0x03 p ∧
    (zerosAt p.bytes 36 4 = true) ∧
    r.tag = w32 (fieldAt p.bytes 32 4) ∧
    r.tag ≠ 0xFFFFFFFF#32 ∧
    r.queue = q.val ∧
    (s.dev.headerFault q p (p.lode == 0xFFFF) (p.session == 0#32) = none) ∧
    (s.dev.service.requests.filter (fun y => y.queue == q.val && y.tag == r.tag) = [r]) ∧
    s.dev.service.closings = [] ∧
    r.st ≠ .running :=
  ⟨at_ fun d => (((d.setOvman .a { st := .serving }).setQueue 9 { st := .active, inbox := [(packet 3 65535 0 (le 4 3 ++ le 4 0))] })).modRequests fun _ => [{ queue := 9, tag := 3#32, st := .waiting, cls := 1, lode := 2, session := 0#32, maxNew := 4, mode := 0#8, k := 0, p := 0#32, temp := 0#32, seed := 0#64, stops := [], input := [1#32], stream := false, padded := 128 }], 9, (packet 3 65535 0 (le 4 3 ++ le 4 0)), { queue := 9, tag := 3#32, st := .waiting, cls := 1, lode := 2, session := 0#32, maxNew := 4, mode := 0#8, k := 0, p := 0#32, temp := 0#32, seed := 0#64, stops := [], input := [1#32], stream := false, padded := 128 },
   by decide,
   by decide,
   by decide,
   by decide,
   by decide,
   by decide,
   by decide,
   by decide,
   by decide⟩

theorem witness_request_and_session_packets_3 : ∃ (s : State) (q : Fin 1024) (p : Packet) (r : Request),
    takes s.dev q 0x03 p ∧
    (zerosAt p.bytes 36 4 = true) ∧
    r.tag = w32 (fieldAt p.bytes 32 4) ∧
    r.tag ≠ 0xFFFFFFFF#32 ∧
    r.queue = q.val ∧
    (s.dev.headerFault q p (p.lode == 0xFFFF) (p.session == 0#32) = none) ∧
    (s.dev.service.requests.filter (fun y => y.queue == q.val && y.tag == r.tag) = [r]) ∧
    s.dev.service.closings = [] ∧
    r.st = .running :=
  ⟨at_ fun d => (((d.setOvman .a { st := .serving }).setQueue 9 { st := .active, inbox := [(packet 3 65535 0 (le 4 3 ++ le 4 0))] })).modRequests fun _ => [{ queue := 9, tag := 3#32, st := .running, cls := 1, lode := 2, session := 0#32, maxNew := 4, mode := 0#8, k := 0, p := 0#32, temp := 0#32, seed := 0#64, stops := [], input := [1#32], stream := false, padded := 128 }], 9, (packet 3 65535 0 (le 4 3 ++ le 4 0)), { queue := 9, tag := 3#32, st := .running, cls := 1, lode := 2, session := 0#32, maxNew := 4, mode := 0#8, k := 0, p := 0#32, temp := 0#32, seed := 0#64, stops := [], input := [1#32], stream := false, padded := 128 },
   by decide,
   by decide,
   by decide,
   by decide,
   by decide,
   by decide,
   by decide,
   by decide,
   by decide⟩

theorem witness_request_and_session_packets_4 : ∃ (s : State) (q : Fin 1024) (p : Packet),
    takes s.dev q 0x04 p ∧
    (zerosAt p.bytes 36 4 = true) ∧
    (s.dev.headerFault q p (s.dev.resident p.lode) (p.session == 0#32) = none) ∧
    (s.dev.resident p.lode = true) ∧
    ((s.dev.apart && s.dev.crossesLink q p.lode) = false) ∧
    s.dev.service.sessions.length < 65536 ∧
    (s.dev.contextTier p.lode ≠ 0) ∧
    (s.dev.service.usedIds.length + 2 < 2 ^ 32) :=
  ⟨at_ fun d => ((d.setOvman .a { st := .serving }).setQueue 9 { st := .active, inbox := [(packet 4 2 0 (le 8 0))] }).setLode 2 { st := .resident, halves := [.a] }, 9, (packet 4 2 0 (le 8 0)),
   by decide,
   by decide,
   by decide,
   by decide,
   by decide,
   by decide,
   by decide,
   by decide⟩

theorem witness_request_and_session_packets_5 : ∃ (s : State) (q : Fin 1024) (p : Packet),
    takes s.dev q 0x05 p ∧
    (s.dev.headerFault q p (p.lode == 0xFFFF) true true = none) ∧
    p.session ≠ 0#32 ∧
    (∀ r ∈ s.dev.service.requests, ¬ (r.queue = q.val ∧ r.session = p.session)) ∧
    s.dev.service.closings = [] :=
  ⟨at_ fun d => (((d.setOvman .a { st := .serving }).setQueue 9 { st := .active, inbox := [(packet 5 65535 6 ([]))] })).modSessions fun _ => [{ ident := 6#32, queue := 9, lode := 2, half := .a, inSeam := true }], 9, (packet 5 65535 6 ([])),
   by decide,
   by decide,
   by decide,
   by decide,
   by decide⟩

theorem witness_lode_packets_0 : ∃ (s : State) (q : Fin 1024) (p : Packet) (hs : List Half) (size : Nat),
    takes s.dev q 0x10 p ∧
    p.lode < 64 ∧
    hs = halvesOf (fieldAt (slice p.bytes 32 64) 6 1) ∧
    size = fieldAt (slice p.bytes 32 64) 8 8 ∧
    ((s.dev.lode p.lode).st = .empty) ∧
    ((s.dev.apart && hs.any fun h => h != queHalf q) = false) ∧
    (s.dev.loadDomains hs = true) ∧
    (∀ h ∈ hs, halfShare size hs ≤ s.dev.freeDram h) :=
  ⟨at_ fun d => ((d.setOvman .a { st := .serving }).setQueue 1 { st := .active, inbox := [(packet 16 2 0 (le 6 0 ++ le 1 1 ++ le 1 0 ++ le 8 8192 ++ le 48 0))] }), 1, (packet 16 2 0 (le 6 0 ++ le 1 1 ++ le 1 0 ++ le 8 8192 ++ le 48 0)), [.a], 8192,
   by decide,
   by decide,
   by decide,
   by decide,
   by decide,
   by decide,
   by decide,
   by decide⟩

theorem witness_lode_packets_1 : ∃ (s : State) (q : Fin 1024) (p : Packet) (off : Nat),
    takes s.dev q 0x11 p ∧
    (zerosAt p.bytes 40 8 = true) ∧
    off = fieldAt p.bytes 32 8 ∧
    (s.dev.loadingSlot p.lode = true) ∧
    (off % 64 = 0) ∧
    (off + (p.bytes.drop 48).length ≤ (s.dev.lode p.lode).size) :=
  ⟨at_ fun d => ((d.setOvman .a { st := .serving }).setQueue 1 { st := .active, inbox := [(packet 17 2 0 (le 8 64 ++ le 8 0 ++ [7#8, 8#8, 9#8, 10#8]))] }).setLode 2 { st := .loading, size := 8192 }, 1, (packet 17 2 0 (le 8 64 ++ le 8 0 ++ [7#8, 8#8, 9#8, 10#8])), 64,
   by decide,
   by decide,
   by decide,
   by decide,
   by decide,
   by decide⟩

set_option maxRecDepth 20000 in
theorem witness_lode_packets_2 : ∃ (s : State) (q : Fin 1024) (p : Packet),
    takes s.dev q 0x12 p ∧
    (s.dev.loadingSlot p.lode = true) ∧
    (imageCheck (s.dev.lode p.lode).image = 0) ∧
    ((s.dev.apart && (s.dev.lode p.lode).spans) = false) :=
  ⟨at_ fun d => ((d.setOvman .a { st := .serving }).setQueue 1 { st := .active, inbox := [(packet 18 2 0 ([]))] }).setLode 2 { st := .loading, size := 20488, image := tinyImage }, 1, (packet 18 2 0 ([])),
   by decide,
   by decide,
   by decide,
   by decide⟩

theorem witness_lode_packets_3 : ∃ (s : State) (q : Fin 1024) (p : Packet),
    takes s.dev q 0x12 p ∧
    (s.dev.loadingSlot p.lode = true) ∧
    (imageCheck (s.dev.lode p.lode).image ≠ 0) :=
  ⟨at_ fun d => ((d.setOvman .a { st := .serving }).setQueue 1 { st := .active, inbox := [(packet 18 2 0 ([]))] }).setLode 2 { st := .loading, size := 8192 }, 1, (packet 18 2 0 ([])),
   by decide,
   by decide,
   by decide⟩

theorem witness_lode_packets_4 : ∃ (s : State) (l : Fin 64) (y : Lode) (a : Asker),
    (s.dev.compute.placing.head? = some l.val) ∧
    ((s.dev.lode l).st = .placing) ∧
    (s.dev.placeLode l = .inr y) ∧
    y.demoted = 0 ∧
    ((s.dev.lode l).unloadAsker = none) ∧
    ((s.dev.lode l).asker = some a) ∧
    ((s.dev.queue a.queue).st = .active) :=
  ⟨at_ fun d => { (d.setQueue 1 { st := .active }).setLode 2 { st := .placing, halves := [.a], asker := some { queue := 1, seq := 5#32, padded := 64 } } with compute := { ((d.setQueue 1 { st := .active }).setLode 2 { st := .placing, halves := [.a], asker := some { queue := 1, seq := 5#32, padded := 64 } }).compute with placing := [2] } }, 2, { st := .resident, halves := [.a], asker := none, seam := [], dram := [] }, { queue := 1, seq := 5#32, padded := 64 },
   by decide,
   by decide,
   by decide,
   by decide,
   by decide,
   by decide,
   by decide⟩

theorem witness_lode_packets_5 : ∃ (s : State) (q : Fin 1024) (p : Packet),
    takes s.dev q 0x13 p ∧
    p.lode < 64 ∧
    ((s.dev.lode p.lode).st = .loading ∨ ((s.dev.lode p.lode).st = .resident ∧ (s.dev.lode p.lode).stepping = false ∧ (s.dev.lode p.lode).repeating = false ∧ ∀ r ∈ s.dev.service.requests, r.lode ≠ p.lode)) :=
  ⟨at_ fun d => ((d.setOvman .a { st := .serving }).setQueue 1 { st := .active, inbox := [(packet 19 2 0 ([]))] }).setLode 2 { st := .resident }, 1, (packet 19 2 0 ([])),
   by decide,
   by decide,
   by decide⟩

theorem witness_image_packets_0 : ∃ (s : State) (q : Fin 1024) (p : Packet),
    takes s.dev q 0x20 p ∧
    (s.dev.serverOf q = .deputy) ∧
    (zerosAt p.bytes 40 8 = true) ∧
    1 ≤ fieldAt p.bytes 32 8 ∧
    (fieldAt p.bytes 32 8 ≤ 50331648) ∧
    s.dev.deputy.load = none ∧
    (∀ h, (s.dev.ovman h).st ≠ .starting) :=
  ⟨at_ fun d => (d.setQueue 0 { st := .active, inbox := [(packet 32 65535 0 (le 8 50331648 ++ le 8 0))] }), 0, (packet 32 65535 0 (le 8 50331648 ++ le 8 0)),
   by decide,
   by decide,
   by decide,
   by decide,
   by decide,
   by decide,
   by intro h; cases h <;> decide⟩

theorem witness_image_packets_1 : ∃ (s : State) (q : Fin 1024) (p : Packet) (l : FwLoad) (off : Nat),
    takes s.dev q 0x21 p ∧
    (zerosAt p.bytes 40 8 = true) ∧
    s.dev.deputy.load = some l ∧
    l.queue = q.val ∧
    off = fieldAt p.bytes 32 8 ∧
    (off % 64 = 0) ∧
    (off + (p.bytes.drop 48).length ≤ l.size) :=
  ⟨at_ fun d => { (d.setQueue 0 { st := .active, inbox := [(packet 33 65535 0 (le 8 64 ++ le 8 0 ++ [7#8, 8#8, 9#8, 10#8]))] }) with deputy := { ((d.setQueue 0 { st := .active, inbox := [(packet 33 65535 0 (le 8 64 ++ le 8 0 ++ [7#8, 8#8, 9#8, 10#8]))] })).deputy with load := some { queue := 0, seq := 3#32, size := 4096 } } }, 0, (packet 33 65535 0 (le 8 64 ++ le 8 0 ++ [7#8, 8#8, 9#8, 10#8])), { queue := 0, seq := 3#32, size := 4096 }, 64,
   by decide,
   by decide,
   by decide,
   by decide,
   by decide,
   by decide,
   by decide⟩

theorem witness_image_packets_2 : ∃ (s : State) (q : Fin 1024) (p : Packet) (l : FwLoad),
    takes s.dev q 0x22 p ∧
    s.dev.deputy.load = some l ∧
    l.queue = q.val ∧
    s.dev.crosscutUp = false :=
  ⟨at_ fun d => { (d.setQueue 0 { st := .active, inbox := [(packet 34 65535 0 ([]))] }).setLinkEnd .a { st := .failed, mode := .split } with deputy := { ((d.setQueue 0 { st := .active, inbox := [(packet 34 65535 0 ([]))] }).setLinkEnd .a { st := .failed, mode := .split }).deputy with load := some { queue := 0, seq := 3#32, size := 4096 } } }, 0, (packet 34 65535 0 ([])), { queue := 0, seq := 3#32, size := 4096 },
   by decide,
   by decide,
   by decide,
   by decide⟩

theorem witness_overman_service_0 : ∃ (s : State) (m : Master) (h : Half),
    passes s.dev m ovmP 0x44 ∧
    h ∈ s.dev.copies (homeOf m) ovmP ∧
    (s.dev.mayServe h = true) :=
  ⟨at_ fun d => d.setOvman .a { st := .starting, deadline := 5#64 }, (.ovm 2), .a,
   by decide,
   by decide,
   by decide⟩

theorem witness_overman_service_1 : ∃ (s : State) (h : Half) (a : Asker),
    ((s.dev.ovman h).st = .starting) ∧
    ((s.dev.ovman h).asker = some a) ∧
    ((s.dev.queue a.queue).st = .active) ∧
    ((s.dev.ovman h).deadline.toNat ≤ (s.dev.watchdogAt h).toNat) ∧
    (s.dev.waitsToServe h.other = false) :=
  ⟨at_ fun d => (d.setQueue 0 { st := .active }).setOvman .a { st := .starting, deadline := 5#64, asker := some { queue := 0, seq := 4#32, padded := 64 } }, .a, { queue := 0, seq := 4#32, padded := 64 },
   by decide,
   by decide,
   by decide,
   by decide,
   by decide⟩

theorem witness_overman_service_2 : ∃ (s : State) (m : Master),
    passes s.dev m ovmP 0x48 :=
  ⟨at_ fun d => d, (.ovm 2),
   by decide⟩

theorem witness_overman_service_3 : ∃ (s : State) (h : Half),
    ((s.dev.ovman h).st = .serving) ∧
    (s.dev.ovmAlive h.other = false) ∧
    (bit (s.dev.reg h ovmP 0x50) 0 = false) :=
  ⟨at_ fun d => (d.setOvman .a { st := .serving }), .a,
   by decide,
   by decide,
   by decide⟩

theorem witness_overman_service_4 : ∃ (s : State) (core : Fin 8) (write : Bool) (addr : BitVec 48),
    (core.val ∉ s.dev.power.isolatedCores) ∧
    (s.dev.ovmAlive (homeOf (.ovm core)) = true) :=
  ⟨at_ fun d => (d.setOvman .a { st := .serving }), 3, false, 0x123456789ABC#48,
   by decide,
   by decide⟩

theorem witness_config_keys_0 : ∃ (s : State) (q : Fin 1024) (p : Packet) (c : Instr) (key v off : Nat),
    oneItem s.dev q p key v ∧
    (s.dev.serverOf q = .deputy) ∧
    s.dev.envelopesHeld = false ∧
    s.dev.cross.bad = [] ∧
    (s.dev.breaches key v = false) ∧
    ((c = .envVmin q ∧ key = 1 ∧ off = 0x80 + 4 * (v / 2 ^ 16)) ∨ (c = .envVmax q ∧ key = 2 ∧ off = 0xC0 + 4 * (v / 2 ^ 16)) ∨ (c = .envImax q ∧ key = 3 ∧ off = 0x100 + 4 * (v / 2 ^ 16)) ∨ (c = .envPceil q ∧ key = 4 ∧ off = 0x140) ∨ (c = .envTtrip q ∧ key = 5 ∧ off = 0x144) ∨ (c = .envDommask q ∧ key = 6 ∧ off = 0x148)) :=
  ⟨at_ fun d => (d.setQueue 0 { st := .active, inbox := [(packet 48 65535 0 (le 2 1 ++ le 6 0 ++ le 4 6 ++ le 4 255))] }), 0, (packet 48 65535 0 (le 2 1 ++ le 6 0 ++ le 4 6 ++ le 4 255)), (.envDommask 0), 6, 255, 0x148,
   by decide,
   by decide,
   by decide,
   by decide,
   by decide,
   by decide⟩

theorem witness_config_keys_1 : ∃ (s : State) (q : Fin 1024) (p : Packet) (c : Instr) (key v off : Nat),
    oneItem s.dev q p key v ∧
    (s.dev.serverOf q = .deputy) ∧
    ((c = .ovmWdtime q ∧ key = 7 ∧ off = 0x4C) ∨ (c = .ovmRestart q ∧ key = 8 ∧ off = 0x50)) :=
  ⟨at_ fun d => (d.setQueue 0 { st := .active, inbox := [(packet 48 65535 0 (le 2 1 ++ le 6 0 ++ le 4 7 ++ le 4 1000))] }), 0, (packet 48 65535 0 (le 2 1 ++ le 6 0 ++ le 4 7 ++ le 4 1000)), (.ovmWdtime 0), 7, 1000, 0x4C,
   by decide,
   by decide,
   by decide⟩

theorem witness_config_keys_2 : ∃ (s : State) (q : Fin 1024) (p : Packet) (v : Nat) (k : PageClass),
    oneItem s.dev q p 0x10 v ∧
    (s.dev.serverOf q = .deputy) ∧
    s.dev.apart = false ∧
    (allClasses.find? (fun x => x.code == v % 256) = some k) ∧
    (∀ i h, i < k.pages → s.dev.pageLocked h (k, i) = false) :=
  ⟨at_ fun d => (d.setQueue 0 { st := .active, inbox := [(packet 48 65535 0 (le 2 1 ++ le 6 0 ++ le 4 16 ++ le 4 0x1206))] }), 0, (packet 48 65535 0 (le 2 1 ++ le 6 0 ++ le 4 16 ++ le 4 0x1206)), 0x1206, .ovm,
   by decide,
   by decide,
   by decide,
   by decide,
   by intro i h hi; obtain rfl : i = 0 := Nat.lt_one_iff.1 hi; cases h <;> decide⟩

theorem witness_config_keys_3 : ∃ (s : State) (q : Fin 1024) (p : Packet) (v : Nat),
    oneItem s.dev q p 0x11 v ∧
    (s.dev.serverOf q = .deputy) :=
  ⟨at_ fun d => (d.setQueue 0 { st := .active, inbox := [(packet 48 65535 0 (le 2 1 ++ le 6 0 ++ le 4 17 ++ le 4 0x5103))] }), 0, (packet 48 65535 0 (le 2 1 ++ le 6 0 ++ le 4 17 ++ le 4 0x5103)), 0x5103,
   by decide,
   by decide⟩

theorem witness_config_keys_4 : ∃ (s : State) (q : Fin 1024) (p : Packet) (c : Instr) (key v : Nat) (old new : Policy),
    oneItem s.dev q p key v ∧
    (s.dev.serverOf q = .overman) ∧
    (isControl q = true) ∧
    old = s.dev.service.policy ∧
    ((c = .weightShort q ∧ key = 0x200 ∧ new = { old with weights := (v, old.weights.2) })
      ∨ (c = .weightInteractive q ∧ key = 0x201 ∧ new = { old with weights := (old.weights.1, v, old.weights.2.2) })
      ∨ (c = .weightBulk q ∧ key = 0x202
          ∧ new = { old with weights := (old.weights.1, old.weights.2.1, v, old.weights.2.2.2) })
      ∨ (c = .weightBackground q ∧ key = 0x203
          ∧ new = { old with weights := (old.weights.1, old.weights.2.1, old.weights.2.2.1, v) })
      ∨ (c = .quantum q ∧ key = 0x204 ∧ new = { old with quantum := v })
      ∨ (c = .batchmax q ∧ key = 0x205 ∧ new = { old with batchMax := v })
      ∨ (c = .steptok q ∧ key = 0x206 ∧ new = { old with stepTok := v })
      ∨ (c = .prefillchunk q ∧ key = 0x207 ∧ new = { old with chunk := v })
      ∨ (c = .capdelta q ∧ key = 0x208 ∧ new = { old with capDelta := v })
      ∨ (c = .teleperiod q ∧ key = 0x209 ∧ new = { old with telePeriod := v })) :=
  ⟨at_ fun d => ((d.setOvman .a { st := .serving }).setQueue 1 { st := .active, inbox := [(packet 48 65535 0 (le 2 1 ++ le 6 0 ++ le 4 516 ++ le 4 64))] }), 1, (packet 48 65535 0 (le 2 1 ++ le 6 0 ++ le 4 516 ++ le 4 64)), (.quantum 1), 0x204, 64, {}, { quantum := 64 },
   by decide,
   by decide,
   by decide,
   by decide,
   by decide⟩

theorem witness_store_and_anti_rollback_0 : ∃ (s : State) (m : Master) (v : W32),
    passes s.dev m nvmP 0x40 ∧
    (bit v 0 = true) ∧
    s.dev.nvm.current = none ∧
    (s.dev.crosscutUp = true ∨ s.dev.bellUp = true) :=
  ⟨at_ fun d => d, .hosta, 3#32,
   by decide,
   by decide,
   by decide,
   by decide⟩

theorem witness_store_and_anti_rollback_1 : ∃ (s : State) (q : Fin 1024) (p : Packet) (v : Nat),
    oneItem s.dev q p 0x100 v ∧
    s.dev.nvm.current = none ∧
    (s.dev.crosscutUp = true ∨ s.dev.bellUp = true) :=
  ⟨at_ fun d => ((d.setOvman .a { st := .serving }).setQueue 1 { st := .active, inbox := [(packet 48 65535 0 (le 2 1 ++ le 6 0 ++ le 4 256 ++ le 4 0))] }), 1, (packet 48 65535 0 (le 2 1 ++ le 6 0 ++ le 4 256 ++ le 4 0)), 0,
   by decide,
   by decide,
   by decide⟩

theorem witness_store_and_anti_rollback_2 : ∃ (s : State) (r : StoreReq) (ok : Bool),
    s.dev.nvm.current = some r ∧
    s.dev.nvm.st = .writing ∧
    s.dev.nvm.localStore = false ∧
    s.dev.crosscutUp = true ∧
    s.dev.nvm.next = none :=
  ⟨at_ fun d => { d with nvm := { st := .writing, current := some { force := false, home := .b } } }, { force := false, home := .b }, true,
   by decide,
   by decide,
   by decide,
   by decide,
   by decide⟩

theorem witness_store_and_anti_rollback_3 : ∃ (s : State) (m : Master) (v : W32) (n : Nat) (verified : Bool),
    passes s.dev m nvmP 0x58 ∧
    s.dev.runningVersion = some n ∧
    (fld v 6 0 ≤ n) ∧
    (fld v 6 0 ≤ 64) ∧
    (s.dev.apart = false ∨ s.dev.bellUp = true) :=
  ⟨at_ fun d => d.setOvman .a { st := .serving, version := 64 }, .hosta, 64#32, 64, false,
   by decide,
   by decide,
   by decide,
   by decide,
   by decide⟩

theorem witness_store_and_anti_rollback_4 : ∃ (s : State) (q : Fin 1024) (p : Packet) (v n : Nat),
    oneItem s.dev q p 0x101 v ∧
    (s.dev.serverOf q = .overman) ∧
    s.dev.runningVersion = some n ∧
    v ≤ n ∧
    (s.dev.apart = false ∨ s.dev.bellUp = true) :=
  ⟨at_ fun d => ((d.setOvman .a { st := .serving, version := 64 }).setQueue 1 { st := .active, inbox := [(packet 48 65535 0 (le 2 1 ++ le 6 0 ++ le 4 257 ++ le 4 64))] }), 1, (packet 48 65535 0 (le 2 1 ++ le 6 0 ++ le 4 257 ++ le 4 64)), 64, 64,
   by decide,
   by decide,
   by decide,
   by decide,
   by decide⟩

theorem witness_nothing_posted_unless_bus_master_0 : ∃ (s : State) (q : Fin 1024),
    ((s.dev.port (queHalf q)).bme = false ∨ (s.dev.port (queHalf q)).d0 = false) :=
  ⟨at_ fun d => d.setPort .a {}, 9,
   by decide⟩

theorem witness_nothing_posted_unless_bus_master_1 : ∃ (d : Device) (h : Half) (vec : BitVec 8),
    ((d.port h).bme = false ∨ (d.port h).d0 = false) ∧
    (d.portReady h = true) :=
  ⟨live.setPort .a {}, .a, 7#8,
   by decide,
   by decide⟩

theorem witness_nothing_posted_unless_bus_master_2 : ∃ (s : State) (q : Fin 1024) (x : Queue) (p : OutPkt) (rest : List OutPkt),
    x = s.dev.queue q ∧
    x.out = p :: rest ∧
    x.st = .active ∧
    ((s.dev.port (queHalf q)).bme = false ∨ (s.dev.port (queHalf q)).d0 = false) ∧
    (s.dev.portReady (queHalf q) = true) ∧
    ((s.dev.port (queHalf q)).haltVec = none) ∧
    (∀ v ∈ (s.dev.port (queHalf q)).waiting, (s.dev.port (queHalf q)).masked v = true) ∧
    ((x.rtail - x.rheadV).toNat + p.padded ≤ s.dev.ringSize q) :=
  ⟨at_ fun d => (d.setPort .a {}).setQueue 9 { st := .active, out := [{ opcode := 0x81#8, payload := [1#8, 2#8] }] }, 9, { st := .active, out := [{ opcode := 0x81#8, payload := [1#8, 2#8] }] }, { opcode := 0x81#8, payload := [1#8, 2#8] }, [],
   by decide,
   by decide,
   by decide,
   by decide,
   by decide,
   by decide,
   by decide,
   by decide⟩

theorem witness_ring_mailbox_and_messages_0 : ∃ (s : State) (q : Fin 1024) (x : Queue) (p : OutPkt) (rest : List OutPkt),
    x = s.dev.queue q ∧
    x.out = p :: rest ∧
    x.st = .active ∧
    (s.dev.mayPost (queHalf q) = true) ∧
    ((x.rtail - x.rheadV).toNat + p.padded ≤ s.dev.ringSize q) ∧
    x.lostEvents = 0 ∧
    (∀ h r, (s.dev.canary h).held = some r → p.isCanaryEvent r.word0 = false) :=
  ⟨at_ fun d => d.setQueue 9 { st := .active, out := [{ opcode := 0x81#8, payload := [1#8, 2#8] }] }, 9, { st := .active, out := [{ opcode := 0x81#8, payload := [1#8, 2#8] }] }, { opcode := 0x81#8, payload := [1#8, 2#8] }, [],
   by decide,
   by decide,
   by decide,
   by decide,
   by decide,
   by decide,
   by intro h; cases h <;> decide⟩

theorem witness_ring_mailbox_and_messages_1 : ∃ (s : State) (q : Fin 1024) (x : Queue),
    x = s.dev.queue q ∧
    x.st = .active ∧
    x.mailDue = true ∧
    (s.dev.mayPost (queHalf q) = true) :=
  ⟨at_ fun d => d.setQueue 9 { st := .active, mailDue := true, unsignalled := 1 }, 9, { st := .active, mailDue := true, unsignalled := 1 },
   by decide,
   by decide,
   by decide,
   by decide⟩

theorem witness_ring_mailbox_and_messages_2 : ∃ (s : State) (q : Fin 1024) (x : Queue) (y : Port) (v : Byte),
    x = s.dev.queue q ∧
    y = s.dev.port (queHalf q) ∧
    v = (s.dev.reg .a (queP q) 0x60).setWidth 8 ∧
    (bit (s.dev.reg .a (queP q) 0x40) 24 = true) ∧
    x.st = .active ∧
    (s.dev.mayPost (queHalf q) = true) ∧
    (fld (s.dev.reg .a (queP q) 0x60) 15 8 < x.unsignalled) :=
  ⟨at_ fun d => (d.setQueue 9 { st := .active, mailDue := true, unsignalled := 1 }).setReg .a (queP 9) 0x40 0x1000000#32, 9, { st := .active, mailDue := true, unsignalled := 1 }, { bme := true }, 0#8,
   by decide,
   by decide,
   by decide,
   by decide,
   by decide,
   by decide,
   by decide⟩

theorem witness_ports_and_telemetry_0 : ∃ (s : State) (h : Half) (enabled d0 : Bool) (x : Port) (ready : List Posted),
    x = s.dev.port h ∧
    ready = (x.waiting.filter fun v => !x.masked v).map (fun v => .msix (BitVec.ofNat 8 v)) :=
  ⟨at_ fun d => d.setPort .b { haltVec := some 7#8, waiting := [9] }, .b, true, true, { haltVec := some 7#8, waiting := [9] }, [],
   by decide,
   by decide⟩

theorem witness_ports_and_telemetry_1 : ∃ (s : State) (h : Half) (correctable : Bool) (x : Port),
    x = s.dev.port h :=
  ⟨at_ fun d => d, .b, true, { bme := true },
   by decide⟩

theorem witness_ports_and_telemetry_2 : ∃ (s : State) (q : Nat) (x : Queue) (d : Device),
    x = s.dev.queue q ∧
    d = (s.dev.advanceTo .a (nextMultiple satWindow s.dev.time.tbA)).advanceTo .b (nextMultiple satWindow s.dev.time.tbA) ∧
    s.dev.queueNumbers.Nodup ∧
    x.st = .active :=
  ⟨at_ fun d => d.setQueue 9 { st := .active, zeroTime := 9000000, saturated := false }, 9, { st := .active, zeroTime := 9000000, saturated := false }, (((live.setQueue 9 { st := .active, zeroTime := 9000000, saturated := false }).advanceTo .a (nextMultiple satWindow (live.setQueue 9 { st := .active, zeroTime := 9000000, saturated := false }).time.tbA)).advanceTo .b (nextMultiple satWindow (live.setQueue 9 { st := .active, zeroTime := 9000000, saturated := false }).time.tbA)),
   by decide,
   by decide,
   by decide,
   by decide⟩

theorem witness_ports_and_telemetry_3 : ∃ (s : State) (d : Device),
    (s.dev.serving .a = true) ∧
    s.dev.apart = false ∧
    d = s.dev.advanceGrid .a (s.dev.service.policy.telePeriod * 100000) :=
  ⟨at_ fun d => (d.setOvman .a { st := .serving }), ((live.setOvman .a { st := .serving }).advanceGrid .a 1000000),
   by decide,
   by decide,
   by decide⟩

theorem witness_canary_reports_0 : ∃ (s : State) (h : Half) (m : CanMsg) (kind c : Nat),
    kind = m.word0.toNat / 2 ^ 46 % 128 ∧
    s.dev.awake = true ∧
    s.dev.txn.held = [] ∧
    m.word1 = ~~~BitVec.ofNat 32 (m.word0.toNat / 2 ^ 32) ∧
    (kindReserved kind = false) ∧
    ((s.dev.canary h).armed = false) ∧
    kind ≠ 0x6C ∧
    kind ≠ 0x6D ∧
    kind ≠ 0x1B ∧
    c = s.dev.classOf h kind m.cond ∧
    1 ≤ c ∧
    (c = 2 → 2 ≤ max (kindClass kind) (condClass kind m.cond)) ∧
    ((s.dev.canary h).held = none) :=
  ⟨at_ fun d => d, .b, { word0 := BitVec.ofNat 64 (0x11 * 2 ^ 46), word1 := ~~~BitVec.ofNat 32 (0x11 * 2 ^ 14), addrHi := none, master := 0#8, access := 0#3, cond := false }, 0x11, 1,
   by decide,
   by decide,
   by decide,
   by decide,
   by decide,
   by decide,
   by decide,
   by decide,
   by decide,
   by decide,
   by decide,
   by decide,
   by decide⟩

theorem witness_canary_reports_1 : ∃ (s : State) (h : Half) (m : CanMsg) (kind c : Nat) (r : CaptureRec),
    kind = m.word0.toNat / 2 ^ 46 % 128 ∧
    s.dev.awake = true ∧
    s.dev.txn.held = [] ∧
    m.word1 = ~~~BitVec.ofNat 32 (m.word0.toNat / 2 ^ 32) ∧
    (kindReserved kind = false) ∧
    ((s.dev.canary h).armed = false) ∧
    kind ≠ 0x6C ∧
    kind ≠ 0x6D ∧
    kind ≠ 0x1B ∧
    c = s.dev.classOf h kind m.cond ∧
    1 ≤ c ∧
    (c = 2 → 2 ≤ max (kindClass kind) (condClass kind m.cond)) ∧
    ((s.dev.canary h).held = some r) ∧
    c ≤ r.reacted.toNat ∧
    (s.dev.checkStored h (canP h) = s.dev) :=
  ⟨at_ fun d => d.setCanary .b { held := some { reacted := 1#2 } }, .b, { word0 := BitVec.ofNat 64 (0x11 * 2 ^ 46), word1 := ~~~BitVec.ofNat 32 (0x11 * 2 ^ 14), addrHi := none, master := 0#8, access := 0#3, cond := false }, 0x11, 1, { reacted := 1#2 },
   by decide,
   by decide,
   by decide,
   by decide,
   by decide,
   by decide,
   by decide,
   by decide,
   by decide,
   by decide,
   by decide,
   by decide,
   by decide,
   by decide,
   by decide⟩

theorem witness_canary_reports_2 : ∃ (s : State) (h : Half) (m : CanMsg) (rest : List CanMsg),
    s.dev.awake = true ∧
    ((s.dev.canary h).inFlight = m :: rest) :=
  ⟨at_ fun d => d.setCanary .b { inFlight := [{ word0 := BitVec.ofNat 64 (0x11 * 2 ^ 46), word1 := ~~~BitVec.ofNat 32 (0x11 * 2 ^ 14), addrHi := none, master := 0#8, access := 0#3, cond := false }] }, .b, { word0 := BitVec.ofNat 64 (0x11 * 2 ^ 46), word1 := ~~~BitVec.ofNat 32 (0x11 * 2 ^ 14), addrHi := none, master := 0#8, access := 0#3, cond := false }, [],
   by decide,
   by decide⟩

theorem witness_canary_commands_and_safe_state_0 : ∃ (s : State) (h : Half) (n : NoticeRec) (rest : List NoticeRec) (c : Canary),
    s.dev.awake = true ∧
    s.dev.txn.held = [] ∧
    c = s.dev.canary h ∧
    c.notices = n :: rest :=
  ⟨at_ fun d => d.setCanary .b { held := some { reacted := 2#2 }, notices := [{ source := 5#11, kind := 6#7, cls := 1#2 }] }, .b, { source := 5#11, kind := 6#7, cls := 1#2 }, [], { held := some { reacted := 2#2 }, notices := [{ source := 5#11, kind := 6#7, cls := 1#2 }] },
   by decide,
   by decide,
   by decide,
   by decide⟩

theorem witness_canary_commands_and_safe_state_1 : ∃ (s : State) (m : Master) (h : Half) (r : CaptureRec),
    passes s.dev m (canP h) 0x40 ∧
    ((s.dev.canary h).held = some r) ∧
    ((s.dev.canary h).armed = false) ∧
    r.reacted ≠ 3#2 :=
  ⟨at_ fun d => d.setCanary .b { held := some {} }, .hosta, .b, {},
   by decide,
   by decide,
   by decide,
   by decide⟩

theorem witness_canary_commands_and_safe_state_2 : ∃ (s : State) (m : Master) (h : Half) (r : CaptureRec),
    passes s.dev m (canP h) 0x40 ∧
    ((s.dev.canary h).held = some r) ∧
    ((s.dev.canary h).armed = false) ∧
    r.reacted = 3#2 :=
  ⟨at_ fun d => d.setCanary .b { held := some { reacted := 3#2 } }, .hosta, .b, { reacted := 3#2 },
   by decide,
   by decide,
   by decide,
   by decide⟩

theorem witness_canary_commands_and_safe_state_3 : ∃ (s : State) (m : Master) (h : Half),
    passes s.dev m (canP h) 0x60 :=
  ⟨at_ fun d => d.setCanary .b { counts := [(3, 5#16)] }, .hosta, .b,
   by decide⟩

theorem witness_canary_commands_and_safe_state_4 : ∃ (s : State) (h : Half),
    ((s.dev.canary h).safe = true) ∧
    ((s.dev.canary h).domainsDone = false) ∧
    (s.dev.baysStopped h = true) ∧
    s.dev.txn.held = [] :=
  ⟨at_ fun d => d.setCanary .b { safe := true }, .b,
   by decide,
   by decide,
   by decide,
   by decide⟩

theorem witness_canary_commands_and_safe_state_5 : ∃ (s : State) (h : Half),
    ((s.dev.canary h).safe = true) ∧
    ((s.dev.haltPol h).testBit 14 = true) ∧
    (tget false s.dev.deputy.running h.idx = true) :=
  ⟨at_ fun d => (d.setCanary .a { safe := true }).setReg .a (canP .a) 0x64 (cpWord 0x4000), .a,
   by decide,
   by decide,
   by decide⟩

theorem witness_injection_0 : ∃ (s : State) (m : Master) (h : Half) (v : W32),
    passes s.dev m (canP h) 0x70 ∧
    ((s.dev.canary h).armed = false) ∧
    (checkerKnown (fld v 14 0) = true) ∧
    (fld v 23 16 ≠ 0) ∧
    (fld v 9 0 ≠ 0x64) :=
  ⟨at_ fun d => d, .hosta, .a, 0x10030#32,
   by decide,
   by decide,
   by decide,
   by decide,
   by decide⟩

theorem witness_injection_1 : ∃ (s : State) (m : Master) (h : Half) (v : W32),
    passes s.dev m (canP h) 0x70 ∧
    ((s.dev.canary h).armed = false) ∧
    (checkerKnown (fld v 14 0) = false) :=
  ⟨at_ fun d => d, .hosta, .a, 0x1002F#32,
   by decide,
   by decide,
   by decide⟩

theorem witness_injection_2 : ∃ (s : State) (m : Master) (h : Half),
    passes s.dev m (canjP h) 0x48 ∧
    ((s.dev.canary h).armed = false) ∧
    (checkerKnown (fld (s.dev.reg .a (canjP h) 0x40) 14 0) = true) ∧
    (fld (s.dev.reg .a (canjP h) 0x40) 9 0 ≠ 0x64) ∧
    (fld (s.dev.reg .a (canjP h) 0x44) 7 0 ≠ 0) :=
  ⟨at_ fun d => (d.setReg .a (canjP .b) 0x40 0x30#32).setReg .a (canjP .b) 0x44 1#32, (.dep .b), .b,
   by decide,
   by decide,
   by decide,
   by decide,
   by decide⟩

theorem witness_injection_3 : ∃ (s : State) (m : Master) (h : Half),
    passes s.dev m (canjP h) 0x48 ∧
    ((s.dev.canary h).armed = true) :=
  ⟨at_ fun d => d.setCanary .b { armed := true, injLeft := 3 }, (.dep .b), .b,
   by decide,
   by decide⟩

theorem witness_twi_target_messages_0 : ∃ (s : State) (msg : TwiMsg) (c : Nat),
    reaches s.dev msg c ∧
    msg.count = 3#8 ∧
    msg.data.length = 3 ∧
    (s.dev.pecFails msg 0x01#8 = false) ∧
    (leNat msg.data % 4 = 0) :=
  ⟨at_ fun d => d, { addr := 0x59#7, count := 3#8, data := [0x04#8, 0x40#8, 0x00#8], pec := none, ready := true }, 1,
   by decide,
   by decide,
   by decide,
   by decide,
   by decide⟩

theorem witness_twi_target_messages_1 : ∃ (s : State) (msg : TwiMsg) (c : Nat),
    reaches s.dev msg c ∧
    msg.count = 3#8 ∧
    msg.data.length = 3 ∧
    (s.dev.pecFails msg 0x01#8 = true) :=
  ⟨at_ fun d => d.setReg .a (twiP 0) 0x40 0x104#32, { addr := 0x59#7, count := 3#8, data := [0x04#8, 0x40#8, 0x00#8], pec := none, ready := true }, 1,
   by decide,
   by decide,
   by decide,
   by decide⟩

theorem witness_twi_target_messages_2 : ∃ (s : State) (msg : TwiMsg) (c : Nat) (p : PageId),
    reaches s.dev msg c ∧
    msg.count = 4#8 ∧
    msg.data.length = 4 ∧
    msg.ready = true ∧
    (s.dev.pecFails msg 0x11#8 = false) ∧
    (pageAt (s.dev.twiCtx c).pointer.toNat = some p) ∧
    ((s.dev.twiCtx c).pointer.toNat % 0x1000 = 0x18) ∧
    passes s.dev .twi p 0x18 :=
  ⟨at_ fun d => { d.modCtx 1 fun c => { c with pointer := 0x5018#24 } with regs := [(0x501C, 0x10#32), (0x100501C, 0x10#32)] }, { addr := 0x59#7, count := 4#8, data := [1#8, 2#8, 3#8, 4#8], pec := none, ready := true }, 1, ovmP,
   by decide,
   by decide,
   by decide,
   by decide,
   by decide,
   by decide,
   by decide,
   by decide⟩

theorem witness_twi_target_messages_3 : ∃ (s : State) (msg : TwiMsg) (c : Nat) (p : PageId),
    reaches s.dev msg c ∧
    msg.ready = true ∧
    msg.pec = none ∧
    (fld (s.dev.reg .a (twiP 0) 0x40) 11 8 = 1) ∧
    (pageAt (s.dev.twiCtx c).pointer.toNat = some p) ∧
    ((s.dev.twiCtx c).pointer.toNat % 0x1000 = 0x18) ∧
    (s.dev.farPage .twi p = false) :=
  ⟨at_ fun d => d.modCtx 1 fun c => { c with pointer := 0x5018#24 }, { addr := 0x59#7, count := 0#8, data := [], pec := none, ready := true }, 1, ovmP,
   by decide,
   by decide,
   by decide,
   by decide,
   by decide,
   by decide,
   by decide⟩

theorem witness_twi_target_messages_4 : ∃ (s : State) (msg : TwiMsg) (c : Nat) (p : PageId),
    reaches s.dev msg c ∧
    msg.ready = true ∧
    msg.pec = none ∧
    (fld (s.dev.reg .a (twiP 0) 0x40) 11 8 = 1) ∧
    msg.count = 3#8 ∧
    msg.data.length = 3 ∧
    (leNat msg.data % 4 = 0) ∧
    (pageAt (leNat msg.data) = some p) ∧
    (leNat msg.data % 0x1000 = 0x18) ∧
    (s.dev.farPage .twi p = false) :=
  ⟨at_ fun d => d, { addr := 0x59#7, count := 3#8, data := [0x18#8, 0x50#8, 0#8], pec := none, ready := true }, 1, ovmP,
   by decide,
   by decide,
   by decide,
   by decide,
   by decide,
   by decide,
   by decide,
   by decide,
   by decide,
   by decide⟩

theorem witness_twi_target_messages_5 : ∃ (s : State) (msg : TwiMsg) (c : Nat),
    reaches s.dev msg c ∧
    msg.ready = true ∧
    msg.pec = none :=
  ⟨at_ fun d => d, { addr := 0x59#7, count := 0#8, data := [], pec := none, ready := true }, 1,
   by decide,
   by decide,
   by decide⟩

theorem witness_twi_limits_and_frames_1 : ∃ (s : State) (c : Fin 4) (read : Bool),
    ((s.dev.twiCtx c).stretch = some read) ∧
    s.dev.time.slew = 0 ∧
    s.dev.pins.porstLow = false :=
  ⟨at_ fun d => d.modCtx 2 fun c => { c with stretch := some true }, 2, true,
   by decide,
   by decide,
   by decide⟩

theorem witness_twi_limits_and_frames_2 : ∃ (s : State),
    s.dev.awake = true ∧
    s.dev.time.slew = 0 :=
  ⟨at_ fun d => d.modCtx 2 fun c => { c with stretch := some true },
   by decide,
   by decide⟩

theorem witness_twi_limits_and_frames_3 : ∃ (s : State) (bytes : List Byte) (msg : PmMsg),
    ((s.dev.linkEnd .b).bell = true) ∧
    bytes.length = 8 ∧
    quiet s.dev ∧
    (msg = { word0 := w32 (fieldAt bytes 0 4), word1 := w32 (fieldAt bytes 4 4), half := .a }) ∧
    msg.malformed = false ∧
    (s.dev.pmCut .deputy msg = false) :=
  ⟨at_ fun d => d, [0x02#8, 0x79#8, 0x04#8, 0x05#8, 0#8, 0#8, 0#8, 0#8], { word0 := 0x05047902#32, word1 := 0#32, half := .a },
   by decide,
   by decide,
   by decide,
   by decide,
   by decide,
   by decide⟩

theorem witness_twi_controller_messages_0 : ∃ (s : State) (m : Master) (v : W32) (msg : PmMsg),
    passes s.dev m (twiP 1) 0x48 ∧
    (msg = { word0 := s.dev.reg .a (twiP 1) 0x44, word1 := v, half := homeOf m }) ∧
    quiet s.dev ∧
    s.dev.twi.rspd.length < 16 ∧
    msg.malformed = false ∧
    (s.dev.pmCut .deputy msg = false) :=
  ⟨at_ fun d => d.setReg .a (twiP 1) 0x44 0x05047902#32, (.dep .a), 0#32, { word0 := 0x05047902#32, word1 := 0#32, half := .a },
   by decide,
   by decide,
   by decide,
   by decide,
   by decide,
   by decide⟩

theorem witness_twi_controller_messages_1 : ∃ (s : State) (m : Master) (v : W32) (msg : PmMsg),
    passes s.dev m (twiP 1) 0x48 ∧
    (msg = { word0 := s.dev.reg .a (twiP 1) 0x44, word1 := v, half := homeOf m }) ∧
    16 ≤ s.dev.twi.depq.length :=
  ⟨at_ fun d => (d.setReg .a (twiP 1) 0x44 0x05047902#32).modTwi fun t => { t with depq := List.replicate 16 { word0 := 0x05047902#32, word1 := 0#32, half := .a } }, (.dep .a), 0#32, { word0 := 0x05047902#32, word1 := 0#32, half := .a },
   by decide,
   by decide,
   by decide⟩

theorem witness_twi_controller_messages_2 : ∃ (s : State) (m : Master) (v : W32) (msg : PmMsg),
    passes s.dev m (twiP 1) 0x50 ∧
    quiet s.dev ∧
    (msg = { word0 := s.dev.reg .a (twiP 1) 0x4C, word1 := v, half := homeOf m }) ∧
    s.dev.twi.rspo.length < 16 ∧
    msg.malformed = false ∧
    (s.dev.pmCut .overman msg = false) ∧
    msg.passes = true :=
  ⟨at_ fun d => d.setReg .a (twiP 1) 0x4C 0x05047902#32, (.ovm 1), 0#32, { word0 := 0x05047902#32, word1 := 0#32, half := .a },
   by decide,
   by decide,
   by decide,
   by decide,
   by decide,
   by decide,
   by decide⟩

theorem witness_twi_controller_messages_3 : ∃ (s : State) (m : Master),
    arrives s.dev m ∧
    (s.dev.farPage m (twiP 1) = false) ∧
    quiet s.dev :=
  ⟨at_ fun d => d.modTwi fun t => { t with rspd := [5#32, 6#32] }, (.dep .b),
   by decide,
   by decide,
   by decide⟩

theorem witness_twi_controller_messages_4 : ∃ (s : State) (m : Master),
    arrives s.dev m ∧
    (s.dev.farPage m (twiP 1) = false) ∧
    quiet s.dev :=
  ⟨at_ fun d => d.modTwi fun t => { t with rspo := [5#32, 6#32] }, (.ovm 1),
   by decide,
   by decide,
   by decide⟩

theorem witness_twi_controller_messages_5 : ∃ (s : State) (r : BusAnswer) (c : Instr) (code : Nat) (m : PmMsg) (src : PmSource) (v : W16),
    s.dev.twi.retry = none ∧
    (s.dev.twi.front = some (src, m)) ∧
    m.code = code ∧
    s.dev.pmIdle = false ∧
    ((c = .pmOperation r ∧ code = 0x01) ∨ (c = .pmClearFaults r ∧ code = 0x03) ∨ (c = .pmVoutMode r ∧ code = 0x20) ∨ (c = .pmStatusWord r ∧ code = 0x79) ∨ (c = .pmStatusVout r ∧ code = 0x7A) ∨ (c = .pmStatusIout r ∧ code = 0x7B) ∨ (c = .pmStatusInput r ∧ code = 0x7C) ∨ (c = .pmStatusTemperature r ∧ code = 0x7D) ∨ (c = .pmReadVin r ∧ code = 0x88) ∨ (c = .pmReadVout r ∧ code = 0x8B) ∨ (c = .pmReadIout r ∧ code = 0x8C) ∨ (c = .pmReadTemperature1 r ∧ code = 0x8D) ∨ (c = .pmReadPout r ∧ code = 0x96)) ∧
    r = .ack v ∧
    m.own = false :=
  ⟨at_ fun d => d.modTwi fun t => { t with depq := [{ word0 := 0x05047902#32, word1 := 0#32, half := .a }] }, (.ack 0x1234#16), (.pmStatusWord (.ack 0x1234#16)), 0x79, { word0 := 0x05047902#32, word1 := 0#32, half := .a }, .deputy, 0x1234#16,
   by decide,
   by decide,
   by decide,
   by decide,
   by decide,
   by decide,
   by decide⟩

theorem witness_twi_controller_messages_6 : ∃ (s : State) (r : BusAnswer) (c : Instr) (code : Nat) (m : PmMsg) (src : PmSource),
    s.dev.twi.retry = none ∧
    (s.dev.twi.front = some (src, m)) ∧
    m.code = code ∧
    s.dev.pmIdle = false ∧
    ((c = .pmOperation r ∧ code = 0x01) ∨ (c = .pmClearFaults r ∧ code = 0x03) ∨ (c = .pmVoutMode r ∧ code = 0x20) ∨ (c = .pmStatusWord r ∧ code = 0x79) ∨ (c = .pmStatusVout r ∧ code = 0x7A) ∨ (c = .pmStatusIout r ∧ code = 0x7B) ∨ (c = .pmStatusInput r ∧ code = 0x7C) ∨ (c = .pmStatusTemperature r ∧ code = 0x7D) ∨ (c = .pmReadVin r ∧ code = 0x88) ∨ (c = .pmReadVout r ∧ code = 0x8B) ∨ (c = .pmReadIout r ∧ code = 0x8C) ∨ (c = .pmReadTemperature1 r ∧ code = 0x8D) ∨ (c = .pmReadPout r ∧ code = 0x96)) ∧
    (r = .nackAddress ∨ r = .nackData) :=
  ⟨at_ fun d => d.modTwi fun t => { t with depq := [{ word0 := 0x05047902#32, word1 := 0#32, half := .a }] }, .nackData, (.pmStatusWord .nackData), 0x79, { word0 := 0x05047902#32, word1 := 0#32, half := .a }, .deputy,
   by decide,
   by decide,
   by decide,
   by decide,
   by decide,
   by decide⟩

theorem witness_twi_bus_time_0 : ∃ (s : State) (src : PmSource) (n : Nat) (m : PmMsg),
    (s.dev.twi.retry = some (src, n)) ∧
    (s.dev.twi.front = some (src, m)) ∧
    s.dev.pmIdle = false ∧
    s.dev.time.slew = 0 ∧
    s.dev.pins.porstLow = false ∧
    n = 1 :=
  ⟨at_ fun d => d.modTwi fun t => { t with depq := [{ word0 := 0x05047902#32, word1 := 0#32, half := .a }], retry := some (.deputy, 1) }, .deputy, 1, { word0 := 0x05047902#32, word1 := 0#32, half := .a },
   by decide,
   by decide,
   by decide,
   by decide,
   by decide,
   by decide⟩

theorem witness_twi_bus_time_1 : ∃ (s : State) (src : PmSource) (n : Nat) (m : PmMsg),
    (s.dev.twi.retry = some (src, n)) ∧
    (s.dev.twi.front = some (src, m)) ∧
    s.dev.pmIdle = false ∧
    s.dev.time.slew = 0 ∧
    s.dev.pins.porstLow = false ∧
    n = 2 ∧
    src = .overman :=
  ⟨at_ fun d => d.modTwi fun t => { t with ovmq := [{ word0 := 0x05047902#32, word1 := 0#32, half := .a }], retry := some (.overman, 2) }, .overman, 2, { word0 := 0x05047902#32, word1 := 0#32, half := .a },
   by decide,
   by decide,
   by decide,
   by decide,
   by decide,
   by decide,
   by decide⟩

theorem witness_twi_bus_time_2 : ∃ (s : State) (src : PmSource) (m : PmMsg),
    (s.dev.twi.front = some (src, m)) ∧
    s.dev.pmIdle = false ∧
    s.dev.twi.losses < 15 :=
  ⟨at_ fun d => d.modTwi fun t => { t with depq := [{ word0 := 0x05047902#32, word1 := 0#32, half := .a }], losses := 14 }, .deputy, { word0 := 0x05047902#32, word1 := 0#32, half := .a },
   by decide,
   by decide,
   by decide⟩

theorem witness_twi_bus_time_3 : ∃ (s : State) (r : BusClear),
    s.dev.power.dormant = false :=
  ⟨at_ fun d => d, .sdaStuck,
   by decide⟩

theorem witness_twi_bus_time_4 : ∃ (s : State),
    s.dev.power.dormant = false ∧
    quiet s.dev :=
  ⟨at_ fun d => d,
   by decide,
   by decide⟩

end Sys2Proof.Tests
end

section
/-! PROOFS. Reports, read data and transaction slots, read after the operation that changes them; how one access of a BAR0
register runs; and the pages of the far half while the halves are apart (R9, R36). -/

namespace Sys2Proof.Machine

section Rules

variable (d : Device)

/-! ## Reports -/

@[simp] theorem Half.idx_other_ne (h : Half) : h.other.idx ≠ h.idx := by cases h <;> decide

@[simp] theorem Device.canary_report_same (h : Half) (r : Report) :
    (d.report h r).canary h = { d.canary h with inFlight := (d.canary h).inFlight ++ [r.message h] } := by
  simp [Device.report, Device.modCanary, Device.setCanary, Device.canary]

@[simp] theorem Device.canary_report_other (h : Half) (r : Report) :
    (d.report h r).canary h.other = d.canary h.other := by
  simp [Device.report, Device.modCanary, Device.setCanary, Device.canary]

theorem reported_report (h : Half) (r : Report) : reported d (d.report h r) h r :=
  ⟨d.canary_report_same h r, d.canary_report_other h r⟩

theorem Device.mem_inFlight_report_same (h : Half) (r : Report) :
    r.message h ∈ ((d.report h r).canary h).inFlight := by simp

/-- A later report takes no message away. -/
theorem Device.mem_inFlight_report {g : Half} {x : CanMsg} (h : Half) (r : Report)
    (hx : x ∈ (d.canary g).inFlight) : x ∈ ((d.report h r).canary g).inFlight := by
  have hg : g = h ∨ g = h.other := by cases g <;> cases h <;> decide
  obtain rfl | rfl := hg
  · simp [hx]
  · simpa using hx

/-! ## Read data and slots -/

/-- What each master's read returned last, after a read of one of them. -/
@[simp] theorem Device.readData_returnRead (m : Master) (v : W32) (j : Nat) :
    tget 0#32 (d.returnRead m v).txn.readData j = if j = masterIdx m then v else tget 0#32 d.txn.readData j :=
  tget_tset 0#32 (masterIdx m) j v d.txn.readData

@[simp] theorem Device.slotAt_report (h : Half) (r : Report) (j : Nat) : (d.report h r).slotAt j = d.slotAt j := rfl

@[simp] theorem Device.slotAt_setSlot (k j : Nat) (t : TxnSlot) :
    (d.setSlot k t).slotAt j = if j = k then t else d.slotAt j :=
  tget_tset ({} : TxnSlot) k j t d.txn.slots

theorem Device.slotAt_endSlot_same (k : Nat) (phase : Phase) (reason : BitVec 4) :
    (d.endSlot k phase reason).slotAt k =
      { d.slotAt k with phase, reason, ctime := d.tb (d.slotAt k).home, claims := [] } := by
  simp [Device.endSlot]

theorem Device.slotAt_endSlot_of_ne {k j : Nat} (hj : j ≠ k) (phase : Phase) (reason : BitVec 4) :
    (d.endSlot k phase reason).slotAt j = d.slotAt j := by
  simp [Device.endSlot, hj]

/-! ## One aligned access of a register -/

section Access

variable {m : Master} {off : BitVec 24}

theorem exec_registerRead (s : State) (ha : arrives s.dev m) (h4 : off.toNat % 4 = 0) :
    exec (.registerWrite ⟨m, off, none, true, false, .registers⟩) s =
      .next { s with dev := s.dev.busRead m off.toNat } := by
  obtain ⟨hreach, hhold⟩ := ha
  simp [exec, execRegisterWrite, Device.access, Device.perform, hreach, hhold, h4]

theorem exec_registerWrite (s : State) (v : W32) (ha : arrives s.dev m) (h4 : off.toNat % 4 = 0) :
    exec (.registerWrite ⟨m, off, some v, true, false, .registers⟩) s =
      .next { s with dev := (s.dev.busWrite m off.toNat v).2 } := by
  obtain ⟨hreach, hhold⟩ := ha
  simp [exec, execRegisterWrite, Device.access, Device.perform, hreach, hhold, h4]

end Access

/-! ## Pages of the far half -/

section Far

variable {d} {m : Master} {off : Nat} {p : PageId}

theorem Device.farPage_of_apart (hd : d.apart = true) (hg : p.1.isGlobal = false)
    (hh : pageHalf p.1 p.2 = (homeOf m).other) : d.farPage m p = true := by
  have hne : (homeOf m).other ≠ homeOf m := by cases homeOf m <;> decide
  simp [Device.farPage, hd, hg, hh, hne]

/-- While the halves are apart nothing stages for the far half (R38). -/
theorem Device.stagesFar_of_apart (hd : d.apart = true) : d.stagesFar m = false := by
  simp [Device.stagesFar, hd]

section Register

variable {row : RegRow} {i : Nat}
variable (hp : pageAt off = some p) (hf : d.farPage m p = true) (hr : findRow p (off % 0x1000) = some (row, i))
include hp hf hr

theorem Device.busRead_of_farPage : d.busRead m off = d.farRead m p (off % 0x1000) := by
  simp [Device.busRead, hp, hr, hf]

theorem Device.busWrite_of_farPage (v : W32) (hd : d.apart = true) :
    d.busWrite m off v = (.refused, d.farWrite m p (off % 0x1000) row.tx) := by
  simp [Device.busWrite, hp, hr, hf, stagesFar_of_apart hd]

end Register

section Reserved

variable (hp : pageAt off = some p) (hf : d.farPage m p = true) (hr : findRow p (off % 0x1000) = none)
include hp hf

theorem Device.reserved_of_farPage (write : Bool) :
    d.reserved m off write = d.report (homeOf m) (accessReport m 0x02 off write) := by
  simp [Device.reserved, hp, hf]

include hr

theorem Device.busRead_of_farPage_reserved :
    d.busRead m off = (d.report (homeOf m) (accessReport m 0x02 off false)).returnRead m 0#32 := by
  simp [Device.busRead, hp, hr, reserved_of_farPage hp hf]

theorem Device.busWrite_of_farPage_reserved (v : W32) :
    d.busWrite m off v = (.refused, d.report (homeOf m) (accessReport m 0x02 off true)) := by
  simp [Device.busWrite, hp, hr, reserved_of_farPage hp hf]

end Reserved

/-! ## What a write of the far half leaves -/

variable {o : Nat} {tx : Bool}

/-- No open transaction would have joined the write: it leaves its report alone. -/
theorem Device.farWrite_of_not_joined (h : tx = false ∨ (d.slotAt (d.slotKey m (slotOf m))).phase ≠ .open) :
    d.farWrite m p o tx = d.report (homeOf m) (accessReport m 0x09 (pageBase p + o) true) := by
  have hn : ¬ (tx = true ∧ (d.slotAt (d.slotKey m (slotOf m))).phase = .open) := by
    rintro ⟨htx, hopen⟩
    exact h.elim (by simp [htx]) (fun hne => hne hopen)
  exact if_neg hn

/-- The master's open transaction would have joined the write: it ends with LINK, and TXN_LINK is reported too (R38). -/
theorem Device.farWrite_of_joined (htx : tx = true) (hopen : (d.slotAt (d.slotKey m (slotOf m))).phase = .open) :
    d.farWrite m p o tx =
      ((d.report (homeOf m) (accessReport m 0x09 (pageBase p + o) true)).endSlot (d.slotKey m (slotOf m)) .aborted
          rLink).report (d.slotAt (d.slotKey m (slotOf m))).home (txnReport (masterCode m) 0x0E (pageBase p + o)) :=
  if_pos ⟨htx, hopen⟩

/-- Whatever it ends, a discarded write of the far half changes the Canaries and the slots alone. -/
theorem Device.farWrite_frame (d : Device) (m : Master) (p : PageId) (o : Nat) (tx : Bool) :
    d.farWrite m p o tx =
      { d with cans := (d.farWrite m p o tx).cans
               txn := { d.txn with slots := (d.farWrite m p o tx).txn.slots } } := by
  by_cases hj : tx = false ∨ (d.slotAt (d.slotKey m (slotOf m))).phase ≠ .open
  · rw [farWrite_of_not_joined hj]; rfl
  · simp only [not_or, Bool.not_eq_false, not_not] at hj
    obtain ⟨htx, hopen⟩ := hj
    rw [farWrite_of_joined htx hopen]; rfl

/-- The transaction that the write ends: ABORTED with LINK, the other slots as they were, FAR_HALF_ACCESS on its way. -/
theorem Device.farWrite_ends_transaction (htx : tx = true)
    (hopen : (d.slotAt (d.slotKey m (slotOf m))).phase = .open) :
    ((d.farWrite m p o tx).slotAt (d.slotKey m (slotOf m))).phase = .aborted
      ∧ ((d.farWrite m p o tx).slotAt (d.slotKey m (slotOf m))).reason = rLink
      ∧ (∀ j, j ≠ d.slotKey m (slotOf m) → (d.farWrite m p o tx).slotAt j = d.slotAt j)
      ∧ (accessReport m 0x09 (pageBase p + o) true).message (homeOf m)
          ∈ ((d.farWrite m p o tx).canary (homeOf m)).inFlight := by
  rw [farWrite_of_joined htx hopen]
  refine ⟨?_, ?_, fun j hj => ?_, ?_⟩
  · rw [slotAt_report, slotAt_endSlot_same]
  · rw [slotAt_report, slotAt_endSlot_same]
  · rw [slotAt_report, slotAt_endSlot_of_ne _ hj, slotAt_report]
  · exact mem_inFlight_report _ _ _ (mem_inFlight_report_same d _ _)

end Far

/-! ## Far-half accesses as commands -/

section Commands

variable {s : State} {m : Master} {off : BitVec 24} {p : PageId}
variable (hf : s.dev.farPage m p = true) (hp : pageAt off.toNat = some p) (h4 : off.toNat % 4 = 0) (ha : arrives s.dev m)
include hf hp h4 ha

/-- A read of the far half returns all ones to its master and sends FAR_HALF_ACCESS. -/
theorem exec_read_farPage {row : RegRow} {i : Nat} (hr : findRow p (off.toNat % 0x1000) = some (row, i)) :
    ∃ e : Device, exec (.registerWrite ⟨m, off, none, true, false, .registers⟩) s = .next { s with dev := e }
      ∧ e = { s.dev with cans := e.cans, txn := { s.dev.txn with readData := e.txn.readData } }
      ∧ tget 0#32 e.txn.readData (masterIdx m) = 0xFFFFFFFF#32
      ∧ (∀ j, j ≠ masterIdx m → tget 0#32 e.txn.readData j = tget 0#32 s.dev.txn.readData j)
      ∧ reported s.dev e (homeOf m) (accessReport m 0x09 (pageBase p + off.toNat % 0x1000) false) := by
  refine ⟨s.dev.farRead m p (off.toNat % 0x1000), ?_, rfl, ?_, fun j hj => ?_, ?_⟩
  · rw [exec_registerRead s ha h4, Device.busRead_of_farPage hp hf hr]
  · simp [Device.farRead]
  · simp [Device.farRead, hj]
  · exact reported_report (s.dev.returnRead m 0xFFFFFFFF#32) _ _

/-- A reserved offset of the far half reads 0, takes no write and is reported as RSVD_ACCESS, as any reserved offset is (R9). -/
theorem exec_reserved_farPage (w : Option W32) (hr : findRow p (off.toNat % 0x1000) = none) :
    ∃ e : Device, exec (.registerWrite ⟨m, off, w, true, false, .registers⟩) s = .next { s with dev := e }
      ∧ e = { s.dev with cans := e.cans, txn := { s.dev.txn with readData := e.txn.readData } }
      ∧ (w = none → tget 0#32 e.txn.readData (masterIdx m) = 0#32) ∧ (w ≠ none → e.txn = s.dev.txn)
      ∧ reported s.dev e (homeOf m) (accessReport m 0x02 off.toNat w.isSome) := by
  cases w with
  | none =>
    refine ⟨(s.dev.report (homeOf m) (accessReport m 0x02 off.toNat false)).returnRead m 0#32, ?_, rfl, ?_, ?_, ?_⟩
    · rw [exec_registerRead s ha h4, Device.busRead_of_farPage_reserved hp hf hr]
    · simp
    · simp
    · exact reported_report s.dev _ _
  | some v =>
    refine ⟨s.dev.report (homeOf m) (accessReport m 0x02 off.toNat true), ?_, rfl, ?_, fun _ => rfl, ?_⟩
    · rw [exec_registerWrite s v ha h4, Device.busWrite_of_farPage_reserved hp hf hr]
    · simp
    · exact reported_report s.dev _ _

/-- A write of the far half is the far write of its register's row, while the halves are apart. -/
theorem exec_write_farPage {row : RegRow} {i : Nat} (v : W32) (hd : s.dev.apart = true)
    (hr : findRow p (off.toNat % 0x1000) = some (row, i)) :
    exec (.registerWrite ⟨m, off, some v, true, false, .registers⟩) s =
      .next { s with dev := s.dev.farWrite m p (off.toNat % 0x1000) row.tx } := by
  rw [exec_registerWrite s v ha h4, Device.busWrite_of_farPage hp hf hr v hd]

end Commands

end Rules

/-- Settles O9: the far-page check comes before every other check of a register access, so only its own effect is left. -/
theorem farHalfAccess : Obligations.FarHalfAccess := by
  refine ⟨by decide, ?_, ?_⟩
  · intro s m off p row i hd hg hh hp h4 ha hr
    have hf := Device.farPage_of_apart hd hg hh
    refine ⟨exec_read_farPage hf hp h4 ha hr, fun v => ?_⟩
    refine ⟨s.dev.farWrite m p (off.toNat % 0x1000) row.tx, exec_write_farPage hf hp h4 ha v hd hr,
      Device.farWrite_frame _ _ _ _ _, fun hn => ?_, Device.farWrite_ends_transaction⟩
    rw [Device.farWrite_of_not_joined hn]
    exact ⟨rfl, reported_report s.dev _ _⟩
  · intro s m off p w hd hg hh hp h4 ha hr
    exact exec_reserved_farPage (Device.farPage_of_apart hd hg hh) hp h4 ha w hr

end Sys2Proof.Machine
end

section
/-! PROOFS. Ports and queues, read after the operation that changes them; the writes to host memory while a port may not
post, which leave the block as it is; and the ring and mailbox writes that follow once it may (R241, R255, R256). -/

namespace Sys2Proof.Machine

/-! ## Ports and queues, read after a write -/

section Output

variable (d : Device)

@[simp] theorem Device.port_setPort_same (h : Half) (x : Port) : (d.setPort h x).port h = x := by
  simp [Device.port, Device.setPort]

@[simp] theorem Device.port_setQueue (h : Half) (q : Nat) (x : Queue) : (d.setQueue q x).port h = d.port h := rfl

@[simp] theorem Device.queue_setPort (h : Half) (x : Port) (q : Nat) : (d.setPort h x).queue q = d.queue q := rfl

@[simp] theorem Device.queue_setQueue_same (q : Nat) (x : Queue) : (d.setQueue q x).queue q = x := by
  simp [Device.queue, Device.setQueue]

@[simp] theorem Device.portReady_setPort (g h : Half) (x : Port) : (d.setPort g x).portReady h = d.portReady h := rfl

@[simp] theorem Device.mayPost_setQueue (h : Half) (q : Nat) (x : Queue) : (d.setQueue q x).mayPost h = d.mayPost h := rfl

theorem Device.mailbox_congr {d e : Device} (hr : e.regs = d.regs) (q : Nat) : e.mailbox q = d.mailbox q := by
  simp [Device.mailbox, Device.reg, Device.word, hr]

@[simp] theorem Port.masked_enable (x : Port) (bme d0 : Bool) (v : Nat) : { x with bme, d0 }.masked v = x.masked v := rfl

/-! ### post -/

@[simp] theorem Device.port_post_same (h : Half) (ps : List Posted) :
    (d.post h ps).port h = { d.port h with posted := (d.port h).posted ++ ps } := by simp [Device.post]

@[simp] theorem Device.mayPost_post_same (h : Half) (ps : List Posted) : (d.post h ps).mayPost h = d.mayPost h := by
  simp [Device.mayPost, Device.post]

@[simp] theorem Device.regs_post (h : Half) (ps : List Posted) : (d.post h ps).regs = d.regs := rfl

/-! ### noteLatency: the service's means alone -/

theorem Device.noteLatency_frame (q : Nat) (p : OutPkt) :
    d.noteLatency q p = { d with service := (d.noteLatency q p).service } := by
  unfold Device.noteLatency
  split <;> rfl

@[simp] theorem Device.port_noteLatency (q : Nat) (p : OutPkt) (h : Half) : (d.noteLatency q p).port h = d.port h := by
  rw [noteLatency_frame]; rfl

@[simp] theorem Device.mayPost_noteLatency (q : Nat) (p : OutPkt) (h : Half) :
    (d.noteLatency q p).mayPost h = d.mayPost h := by
  rw [noteLatency_frame]; rfl

@[simp] theorem Device.regs_noteLatency (q : Nat) (p : OutPkt) : (d.noteLatency q p).regs = d.regs := by
  rw [noteLatency_frame]

/-! ### mailDue and payCredits: the queues alone -/

@[simp] theorem Device.port_mailDue (q : Nat) (h : Half) : (d.mailDue q).port h = d.port h := rfl
@[simp] theorem Device.mayPost_mailDue (q : Nat) (h : Half) : (d.mailDue q).mayPost h = d.mayPost h := rfl
@[simp] theorem Device.regs_mailDue (q : Nat) : (d.mailDue q).regs = d.regs := rfl

/-- A mailbox write made due changes no field of the queue but the mark and the account of zero credit. -/
theorem Device.queue_mailDue_same (q : Nat) :
    (d.mailDue q).queue q =
      { d.queue q with
        mailDue := (d.queue q).mailDue || (d.queue q).st == .active
        zeroTime := ((d.mailDue q).queue q).zeroTime
        zeroWin := ((d.mailDue q).queue q).zeroWin
        zeroSince := ((d.mailDue q).queue q).zeroSince } := by
  simp [Device.mailDue, Device.accountZero, Device.modQueue]

theorem Device.payCredits_frame (q : Nat) :
    d.payCredits q = { d with host := { d.host with queues := (d.payCredits q).host.queues } } := by
  unfold Device.payCredits
  dsimp only
  split <;> rfl

@[simp] theorem Device.port_payCredits (q : Nat) (h : Half) : (d.payCredits q).port h = d.port h := by
  rw [payCredits_frame]; rfl

@[simp] theorem Device.mayPost_payCredits (q : Nat) (h : Half) : (d.payCredits q).mayPost h = d.mayPost h := by
  rw [payCredits_frame]; rfl

@[simp] theorem Device.regs_payCredits (q : Nat) : (d.payCredits q).regs = d.regs := by rw [payCredits_frame]

/-- The queue is ACTIVE with a mailbox write due, and its last mailbox write had generation g. -/
def Queue.mailPending (x : Queue) (g : W32) : Prop := x.st = .active ∧ x.mailDue = true ∧ x.gen = g

theorem Device.mailPending_mailDue (q : Nat) (hst : (d.queue q).st = .active) :
    ((d.mailDue q).queue q).mailPending (d.queue q).gen := by
  rw [queue_mailDue_same]
  exact ⟨hst, by simp [hst], rfl⟩

theorem Device.mailPending_payCredits {q : Nat} {g : W32} (hp : (d.queue q).mailPending g) :
    ((d.payCredits q).queue q).mailPending g := by
  obtain ⟨hst, hdue, rfl⟩ := hp
  unfold Device.payCredits
  dsimp only
  split
  · exact ⟨hst, hdue, rfl⟩
  · simpa using (d.setQueue q _).mailPending_mailDue q (by simpa using hst)

end Output

/-! ## A port that may not post -/

section Held

variable {d : Device}

theorem Device.mayPost_eq_false {h : Half} (hb : (d.port h).bme = false ∨ (d.port h).d0 = false) :
    d.mayPost h = false := by
  obtain hb | hb := hb <;> simp [Device.mayPost, hb]

section Queue

variable {q : Nat} (hm : d.mayPost (queHalf q) = false)
include hm

theorem Device.ringWrite_of_not_mayPost : d.ringWrite q = d := by
  unfold Device.ringWrite
  dsimp only
  split
  · rfl
  · simp [hm]

theorem Device.mailWrite_of_not_mayPost : d.mailWrite q = d := by simp [Device.mailWrite, hm]

theorem Device.msixSend_of_not_mayPost : d.msixSend q = d := by simp [Device.msixSend, hm]

/-- The sequence number of the ring's next packet stays, so no packet counts as written. -/
theorem Device.writeOut_of_not_mayPost : d.writeOut q = d := by
  unfold Device.writeOut
  rw [ringWrite_of_not_mayPost hm]
  dsimp only
  split
  · exact if_pos rfl
  · rfl

theorem Device.flushQueue_of_not_mayPost : d.flushQueue q = d := by
  have hring : ∀ ns : List Nat, ns.foldl (fun d _ => d.ringWrite q) d = d := by
    intro ns
    induction ns with
    | nil => rfl
    | cons n ns ih => rw [List.foldl_cons, ringWrite_of_not_mayPost hm, ih]
  rw [Device.flushQueue, hring, mailWrite_of_not_mayPost hm]

end Queue

/-- A port that is up keeps the message of the safe state. -/
theorem Device.port_postHalt_of_not_mayPost {h : Half} (hm : d.mayPost h = false) (hr : d.portReady h = true)
    (vec : BitVec 8) : (d.postHalt h vec).port h = { d.port h with haltVec := some vec } := by
  simp [Device.postHalt, hm, hr]

end Held

/-! ## Bus Master Enable and D0 hold again -/

section Enable

variable (d : Device)

theorem Device.sendKept_of_none {h : Half} (hh : (d.port h).haltVec = none) : d.sendKept h = d := by
  simp [Device.sendKept, hh]

theorem Device.sendWaiting_frame (h : Half) :
    d.sendWaiting h = { d with host := { d.host with ports := (d.sendWaiting h).host.ports } } := by
  unfold Device.sendWaiting
  dsimp only
  split <;> rfl

/-- Every waiting message is masked: none of them goes out. -/
theorem Device.port_sendWaiting_of_masked {h : Half} (hw : ∀ v ∈ (d.port h).waiting, (d.port h).masked v = true) :
    (d.sendWaiting h).port h = d.port h := by
  have hkeep : (d.port h).waiting.filter (d.port h).masked = (d.port h).waiting := List.filter_eq_self.mpr hw
  have hsend : (d.port h).waiting.filter (fun v => !(d.port h).masked v) = [] := by simpa using hw
  unfold Device.sendWaiting
  dsimp only
  split
  · rfl
  · rw [hkeep, hsend]; simp

/-- What a port's enable leaves when no message of it can go out: the two bits in the port, nothing posted. -/
theorem exec_busMasterEnable_of_masked {s : State} {h : Half} (hh : (s.dev.port h).haltVec = none)
    (hw : ∀ v ∈ (s.dev.port h).waiting, (s.dev.port h).masked v = true) :
    ∃ e : Device, exec (.busMasterEnable h true true) s = .next { s with dev := e }
      ∧ e = { s.dev with host := { s.dev.host with ports := e.host.ports } }
      ∧ e.port h = { s.dev.port h with bme := true, d0 := true } := by
  refine ⟨(s.dev.setPort h { s.dev.port h with bme := true, d0 := true }).sendWaiting h, ?_, ?_, ?_⟩
  · simp only [exec, execBusMasterEnable, runOn_next]
    rw [Device.sendKept_of_none _ (by simpa using hh)]
  · rw [Device.sendWaiting_frame]; rfl
  · rw [Device.port_sendWaiting_of_masked _ (by simpa using hw), Device.port_setPort_same]

end Enable

/-! ## A ring write that has room -/

section Ring

variable {d : Device} {q : Nat} {p : OutPkt} {rest : List OutPkt}

section Written

variable (hout : (d.queue q).out = p :: rest) (hst : (d.queue q).st = .active) (hm : d.mayPost (queHalf q) = true)
variable (hroom : ((d.queue q).rtail - (d.queue q).rheadV).toNat + p.padded ≤ d.ringSize q)
include hout hst hm hroom

/-- The oldest packet is posted, its latency noted, the queue moved on, and its mailbox and credits follow. -/
theorem Device.ringWrite_of_room : ∃ y : Queue, y.st = .active ∧ y.gen = (d.queue q).gen
    ∧ d.ringWrite q =
        ((((d.post (queHalf q) (ringPosts (d.ringBase q) (d.ringSize q) (d.queue q).rtail.toNat
          (p.bytes q (d.queue q).outSeq))).noteLatency q p).setQueue q y).mailDue q).payCredits q := by
  have hgo : ¬ ((d.queue q).st ≠ .active ∨ (!d.mayPost (queHalf q)) = true
      ∨ d.ringSize q < ((d.queue q).rtail - (d.queue q).rheadV).toNat + p.padded) := by
    simpa [hst, hm] using hroom
  unfold Device.ringWrite
  simp only [hout]
  rw [if_neg hgo]
  refine ⟨_, ?_, ?_, rfl⟩
  · exact hst
  · rfl

theorem Device.posted_ringWrite : ((d.ringWrite q).port (queHalf q)).posted = (d.port (queHalf q)).posted
    ++ ringPosts (d.ringBase q) (d.ringSize q) (d.queue q).rtail.toNat (p.bytes q (d.queue q).outSeq) := by
  obtain ⟨y, -, -, hy⟩ := ringWrite_of_room hout hst hm hroom
  simp [hy]

theorem Device.mailPending_ringWrite : ((d.ringWrite q).queue q).mailPending (d.queue q).gen := by
  obtain ⟨y, hact, hgen, hy⟩ := ringWrite_of_room hout hst hm hroom
  rw [hy, ← hgen]
  apply mailPending_payCredits
  simpa using mailPending_mailDue (Device.setQueue _ q y) q (by simpa using hact)

theorem Device.mayPost_ringWrite : (d.ringWrite q).mayPost (queHalf q) = true := by
  obtain ⟨y, -, -, hy⟩ := ringWrite_of_room hout hst hm hroom
  simp [hy, hm]

theorem Device.mailbox_ringWrite : (d.ringWrite q).mailbox q = d.mailbox q := by
  obtain ⟨y, -, -, hy⟩ := ringWrite_of_room hout hst hm hroom
  exact mailbox_congr (by simp [hy]) q

end Written

end Ring

/-! ## Deputy's release of a capture after a ring write (R328) -/

section Release

variable (d : Device)

theorem Device.logCheck_frame (h : Half) (slot : Nat) :
    d.logCheck h slot =
      { d with regs := (d.logCheck h slot).regs, cross := (d.logCheck h slot).cross, cans := (d.logCheck h slot).cans } := by
  unfold Device.logCheck
  split
  · rfl
  · dsimp only; split <;> rfl

theorem Device.releaseCapture_frame (h : Half) :
    (d.releaseCapture h).2 =
      { d with regs := (d.releaseCapture h).2.regs, cross := (d.releaseCapture h).2.cross
               cans := (d.releaseCapture h).2.cans } := by
  unfold Device.releaseCapture
  dsimp only
  split
  · rfl
  · split
    · rfl
    · rw [logCheck_frame]; rfl

theorem Device.bootRelease_frame (p : OutPkt) (h : Half) :
    d.bootRelease p h =
      { d with regs := (d.bootRelease p h).regs, cross := (d.bootRelease p h).cross, cans := (d.bootRelease p h).cans } := by
  unfold Device.bootRelease
  split
  · rfl
  · dsimp only
    split
    · exact d.releaseCapture_frame h
    · rfl

/-- The pages of the queues lie above those of the Canaries. -/
theorem regKey_queP_ne_regKey_canP (h : Half) (q : Nat) (o : Nat) : regKey .a (queP q) o ≠ regKey .a (canP h) 0x14 := by
  have hidx : h.idx ≤ 1 := by cases h <;> decide
  simp only [regKey, queP, canP, pageBase, PageClass.isGlobal, PageClass.base, Bool.false_eq_true, if_false]
  omega

@[simp] theorem Device.mailbox_setCanary (h : Half) (c : Canary) (q : Nat) :
    (d.setCanary h c).mailbox q = d.mailbox q := rfl

@[simp] theorem Device.mailbox_report (h : Half) (r : Report) (q : Nat) : (d.report h r).mailbox q = d.mailbox q := rfl

@[simp] theorem Device.mailbox_perr_canP (h : Half) (bits q : Nat) :
    (d.perr .a (canP h) bits).mailbox q = d.mailbox q := by
  simp [Device.mailbox, Device.perr, Device.setReg, Device.reg, regKey_queP_ne_regKey_canP]

@[simp] theorem Device.mailbox_logCheck (h : Half) (slot q : Nat) : (d.logCheck h slot).mailbox q = d.mailbox q := by
  unfold Device.logCheck
  split
  · rfl
  · dsimp only
    split
    · rfl
    · simp [Device.modCanary, Device.consumeInjection]

@[simp] theorem Device.mailbox_releaseCapture (h : Half) (q : Nat) :
    (d.releaseCapture h).2.mailbox q = d.mailbox q := by
  unfold Device.releaseCapture
  dsimp only
  split
  · rfl
  · split <;> simp

@[simp] theorem Device.mailbox_bootRelease (p : OutPkt) (h : Half) (q : Nat) :
    (d.bootRelease p h).mailbox q = d.mailbox q := by
  unfold Device.bootRelease
  split
  · rfl
  · dsimp only; split <;> simp

@[simp] theorem Device.port_bootRelease (p : OutPkt) (h g : Half) : (d.bootRelease p h).port g = d.port g := by
  rw [bootRelease_frame]; rfl

@[simp] theorem Device.queue_bootRelease (p : OutPkt) (h : Half) (q : Nat) : (d.bootRelease p h).queue q = d.queue q := by
  rw [bootRelease_frame]; rfl

@[simp] theorem Device.mayPost_bootRelease (p : OutPkt) (h g : Half) : (d.bootRelease p h).mayPost g = d.mayPost g := by
  rw [bootRelease_frame]; rfl

/-- The command is the ring write, followed by Deputy's releases or by nothing. -/
theorem Device.writeOut_cases (q : Nat) :
    d.writeOut q = d.ringWrite q
      ∨ ∃ p, d.writeOut q = ((d.ringWrite q).bootRelease p .a).bootRelease p .b := by
  unfold Device.writeOut
  dsimp only
  split
  · split
    · exact .inl rfl
    · exact .inr ⟨_, rfl⟩
  · exact .inl rfl

/-- What a mailbox write uses, and what the port has posted, are the ring write's own. -/
theorem Device.writeOut_output (q : Nat) :
    (d.writeOut q).port (queHalf q) = (d.ringWrite q).port (queHalf q)
      ∧ (d.writeOut q).queue q = (d.ringWrite q).queue q
      ∧ (d.writeOut q).mayPost (queHalf q) = (d.ringWrite q).mayPost (queHalf q)
      ∧ (d.writeOut q).mailbox q = (d.ringWrite q).mailbox q := by
  obtain h | ⟨p, h⟩ := d.writeOut_cases q <;> simp [h]

end Release

/-! ## A mailbox write that is due -/

theorem Device.posted_mailWrite {d : Device} {q : Nat} {g : W32} (hp : (d.queue q).mailPending g)
    (hm : d.mayPost (queHalf q) = true) :
    ((d.mailWrite q).port (queHalf q)).posted =
      (d.port (queHalf q)).posted ++ [.bytes (d.mailbox q) (d.mailBytes q (g + 1#32))] := by
  obtain ⟨hst, hdue, rfl⟩ := hp
  simp [Device.mailWrite, hst, hdue, hm]

/-- The ring write and the mailbox write of a queue whose port may post, one after the other. -/
theorem exec_ringWrite_then_mailboxWrite {s : State} {q : Fin 1024} {p : OutPkt} {rest : List OutPkt}
    (hout : (s.dev.queue q).out = p :: rest) (hst : (s.dev.queue q).st = .active)
    (hm : s.dev.mayPost (queHalf q) = true)
    (hroom : ((s.dev.queue q).rtail - (s.dev.queue q).rheadV).toNat + p.padded ≤ s.dev.ringSize q) :
    ∃ f g : Device, exec (.ringWrite q) s = .next { s with dev := f }
      ∧ exec (.mailboxWrite q) { s with dev := f } = .next { s with dev := g }
      ∧ (f.port (queHalf q)).posted = (s.dev.port (queHalf q)).posted
          ++ ringPosts (s.dev.ringBase q) (s.dev.ringSize q) (s.dev.queue q).rtail.toNat
            (p.bytes q (s.dev.queue q).outSeq)
      ∧ (g.port (queHalf q)).posted = (f.port (queHalf q)).posted
          ++ [.bytes (s.dev.mailbox q) (f.mailBytes q ((s.dev.queue q).gen + 1#32))] := by
  obtain ⟨hport, hqueue, hmay, hbox⟩ := s.dev.writeOut_output q
  refine ⟨s.dev.writeOut q, (s.dev.writeOut q).mailWrite q, rfl, rfl, ?_, ?_⟩
  · rw [hport, Device.posted_ringWrite hout hst hm hroom]
  · have hpend : ((s.dev.writeOut q).queue q).mailPending (s.dev.queue q).gen := by
      rw [hqueue]; exact Device.mailPending_ringWrite hout hst hm hroom
    rw [Device.posted_mailWrite hpend (by rw [hmay, Device.mayPost_ringWrite hout hst hm hroom]), hbox,
      Device.mailbox_ringWrite hout hst hm hroom]

/-- Settles O51: where a port may not post, no command takes its writing branch; once the port is enabled, with no message
of its own to send, the ring write and then the mailbox write post what waited. -/
theorem nothingPostedUnlessBusMaster : Obligations.NothingPostedUnlessBusMaster := by
  refine ⟨fun s q hb => ?_, fun d h vec hb hr => ?_, ?_⟩
  · have hm := Device.mayPost_eq_false hb
    refine ⟨?_, ?_, ?_, Device.flushQueue_of_not_mayPost hm⟩
    · simp [exec, execRingWrite, Device.writeOut_of_not_mayPost hm]
    · simp [exec, execMailboxWrite, Device.mailWrite_of_not_mayPost hm]
    · simp [exec, execMsixMessage, Device.msixSend_of_not_mayPost hm]
  · exact Device.port_postHalt_of_not_mayPost (Device.mayPost_eq_false hb) hr vec
  · rintro s q x p rest rfl hout hst - hr hh hw hroom
    obtain ⟨e, hexec, hframe, hport⟩ := exec_busMasterEnable_of_masked hh hw
    have hready : e.portReady (queHalf q) = true := by rw [hframe]; exact hr
    have hm : e.mayPost (queHalf q) = true := by simp [Device.mayPost, hport, hready]
    have hqueue : e.queue q = s.dev.queue q := by rw [hframe]; rfl
    have hsize : e.ringSize q = s.dev.ringSize q := by rw [hframe]; rfl
    have hbase : e.ringBase q = s.dev.ringBase q := by rw [hframe]; rfl
    have hbox : e.mailbox q = s.dev.mailbox q := by rw [hframe]; rfl
    have hposted : (e.port (queHalf q)).posted = (s.dev.port (queHalf q)).posted := by rw [hport]
    rw [← hqueue] at hout hst hroom
    rw [← hsize] at hroom
    obtain ⟨f, g, hring, hmail, hf, hg⟩ :=
      exec_ringWrite_then_mailboxWrite (s := { s with dev := e }) hout hst hm hroom
    simp only [hqueue, hsize, hbase, hbox, hposted] at hf hg
    exact ⟨e, f, g, hexec, hring, hmail, hposted, hf, hg⟩

end Sys2Proof.Machine
end

section
/-! PROOFS. Contexts of TWI0, PERR bits and elapsed time, read after the operation that changes them; then the stretch limit,
the bus timeout, and the TWI frame that brings a message to TWI1 on Half B (R349, R350, R359, R360, R366). -/

namespace Sys2Proof.Machine

/-! ## Tables and registers, read after a write -/

/-- A value other than the default is listed under its index. -/
theorem mem_of_tget_ne {α : Type} {x : α} {i : Nat} {t : Tab α} (h : tget x t i ≠ x) : (i, tget x t i) ∈ t := by
  induction t with
  | nil => exact absurd rfl h
  | cons e t ih =>
    obtain ⟨j, v⟩ := e
    by_cases hj : i = j
    · simp [tget, tabGet, hj]
    · have htail : tget x ((j, v) :: t) i = tget x t i := by simp [tget, tabGet, hj]
      rw [htail] at h ⊢
      exact List.mem_cons_of_mem _ (ih h)

section Rules

variable (d : Device)

/-- A register write changes its own word alone, and the word its unit uses of it alone (R51). -/
theorem Device.keeps_setWord {k j : Nat} (v : W32) (h : j ≠ k) : keeps d (d.setWord k v) j := by
  have hword : (d.setWord k v).word j = d.word j := by simp [h]
  have huse : tget none (d.setWord k v).cross.inUse j = tget none d.cross.inUse j := by simp [Device.setWord, h]
  exact ⟨hword, by rw [Device.used, huse, hword, Device.used]⟩

theorem Device.reg_perr_same (h : Half) (p : PageId) (bits : Nat) :
    (d.perr h p bits).reg h p 0x14 = d.reg h p 0x14 ||| w32 bits := by
  simp [Device.perr, Device.setReg, Device.reg]

theorem Device.wordsKept_perr (h : Half) (p : PageId) (bits : Nat) :
    wordsKept d (d.perr h p bits) [regKey h p 0x14] :=
  fun _ hk => d.keeps_setWord _ (by simpa using hk)

/-! ## Time -/

theorem Device.advanceBy_of_clocked (hp : d.pins.porstLow = false) (h : Half) (n : Nat) :
    d.advanceBy h n = { d with time := d.time.pass h n } := by simp [Device.advanceBy, hp]

/-- Half A's timebase counts every AONCLK cycle, with a slew of Half B's under way or without (R53, R55). -/
theorem Time.tbA_pass (t : Time) (n : Nat) : (t.pass .a n).tbA = t.tbA + BitVec.ofNat 64 n := rfl

/-! ## Contexts -/

@[simp] theorem Device.twiCtx_modCtx (c j : Nat) (f : TwiCtx → TwiCtx) :
    (d.modCtx c f).twiCtx j = if j = c then f (d.twiCtx c) else d.twiCtx j := by
  simp [Device.twiCtx, Device.modCtx, Device.modTwi]

@[simp] theorem Device.twiCtx_setStatus (c j : Nat) (st : Byte) :
    (d.setStatus c st).twiCtx j = if j = c then { d.twiCtx c with status := st } else d.twiCtx j :=
  d.twiCtx_modCtx c j _

@[simp] theorem Device.twiCtx_twiReply (bs : List Byte) (j : Nat) : (d.twiReply bs).twiCtx j = d.twiCtx j := rfl

@[simp] theorem Device.twiCtx_report (h : Half) (r : Report) (j : Nat) : (d.report h r).twiCtx j = d.twiCtx j := rfl

/-- One change of several contexts changes the table of contexts alone. -/
theorem Device.each_modCtx_frame (f : TwiCtx → TwiCtx) (cs : List Nat) :
    (d.each cs fun d c => d.modCtx c f) =
      { d with twi := { d.twi with ctxs := (d.each cs fun d c => d.modCtx c f).twi.ctxs } } := by
  induction cs generalizing d with
  | nil => rfl
  | cons c cs ih => exact ih (d.modCtx c f)

/-- One change of several contexts, which a context may meet more than once to the same effect. -/
theorem Device.twiCtx_each_modCtx {f : TwiCtx → TwiCtx} (hf : ∀ x, f (f x) = f x) (cs : List Nat) (j : Nat) :
    (d.each cs fun d c => d.modCtx c f).twiCtx j = if j ∈ cs then f (d.twiCtx j) else d.twiCtx j := by
  induction cs generalizing d with
  | nil => rfl
  | cons c cs ih =>
    have htail : (d.each (c :: cs) fun d c => d.modCtx c f).twiCtx j =
        if j ∈ cs then f ((d.modCtx c f).twiCtx j) else (d.modCtx c f).twiCtx j := ih (d.modCtx c f)
    rw [htail, twiCtx_modCtx]
    by_cases hj : j = c
    · subst hj; simp [hf]
    · simp [hj]

end Rules

/-! ## The stretch limit (R349) -/

section Stretch

variable (d : Device) (c : Nat) (t : Time)

/-- What the stretch limit does whatever message was stretched, when the time is t: the stretch is over, and is counted. -/
def Device.stretchEnded : Device :=
  { d with
    time := t
    twi := { d.twi with
      ctxs := (d.modCtx c fun x => { x with stretch := none }).twi.ctxs
      stretchErrs := satInc d.twi.stretchErrs } }

@[simp] theorem Device.twiCtx_stretchEnded (j : Nat) :
    (d.stretchEnded c t).twiCtx j = if j = c then { d.twiCtx c with stretch := none } else d.twiCtx j :=
  d.twiCtx_modCtx c j fun x => { x with stretch := none }

variable {d c}

/-- A stretched read: its controller has clocked 0xFF for the data, and TWI_STRETCH_LIMIT is on its way. -/
theorem Device.stretchLimit_of_read (h : (d.twiCtx c).stretch = some true) (hp : d.pins.porstLow = false) :
    d.stretchLimit c =
      (((d.stretchEnded c (d.time.pass .a ms)).setStatus c twTimeout).twiReply
        (BitVec.ofNat 8 d.twiBytes :: List.replicate d.twiBytes 0xFF#8)).report .a (unitReport 0x6C 0x5B (twiP 0)) := by
  simp only [Device.stretchLimit, h, advanceBy_of_clocked d hp, if_true, Device.stretchEnded, Device.modCtx,
    Device.modTwi, Device.twiBytes, Device.reg, Device.word]

/-- A stretched STATUS: the write before it is still being applied. -/
theorem Device.stretchLimit_of_status (h : (d.twiCtx c).stretch = some false) (hp : d.pins.porstLow = false) :
    d.stretchLimit c = (d.stretchEnded c (d.time.pass .a ms)).twiReply [twBusy] := by
  simp only [Device.stretchLimit, h, advanceBy_of_clocked d hp, Bool.false_eq_true, if_false, Device.stretchEnded,
    Device.modCtx, Device.modTwi]

/-- Of the block d, what e has changed when a stretch of context c has ended at the time t: the context is x, the port has
sent the bytes bs, the stretch is counted, and Canary's state is e's own. -/
structure StretchOver (d e : Device) (c : Nat) (t : Time) (x : TwiCtx) (bs : List Byte) : Prop where
  frame : e = { d with
    time := e.time
    cans := e.cans
    twi := { d.twi with ctxs := e.twi.ctxs, reply := e.twi.reply, stretchErrs := satInc d.twi.stretchErrs } }
  time : e.time = t
  ctx : e.twiCtx c = x
  others : ∀ j, j ≠ c → e.twiCtx j = d.twiCtx j
  reply : e.twi.reply = bs

variable {e : Device} {bs : List Byte}

theorem stretchOver_of_report {st : Byte} {r : Report}
    (he : e = (((d.stretchEnded c t).setStatus c st).twiReply bs).report .a r) :
    StretchOver d e c t { d.twiCtx c with stretch := none, status := st } bs ∧ reported d e .a r := by
  subst he
  exact ⟨⟨rfl, rfl, by simp, fun j hj => by simp [hj], rfl⟩,
    reported_report (((d.stretchEnded c t).setStatus c st).twiReply bs) .a r⟩

theorem stretchOver_of_twiReply (he : e = (d.stretchEnded c t).twiReply bs) :
    StretchOver d e c t { d.twiCtx c with stretch := none } bs ∧ e.cans = d.cans := by
  subst he
  exact ⟨⟨rfl, rfl, by simp, fun j hj => by simp [hj], rfl⟩, rfl⟩

end Stretch

/-! ## The bus timeout (R350) -/

section Stuck

/-- A stretched message ends with nothing but its status. -/
def TwiCtx.aborted (x : TwiCtx) : TwiCtx := { x with stretch := none, status := twAborted }

variable (d : Device)

/-- Contexts whose message is being stretched. -/
def Device.stretched : List Nat := (d.twi.ctxs.filter (·.2.stretch.isSome)).map (·.1)

variable {d}

theorem Device.mem_stretched {c : Nat} (h : (d.twiCtx c).stretch ≠ none) : c ∈ d.stretched := by
  have hlisted : (c, d.twiCtx c) ∈ d.twi.ctxs :=
    mem_of_tget_ne (x := ({} : TwiCtx)) fun hdefault => h (congrArg TwiCtx.stretch hdefault)
  exact List.mem_map.2 ⟨_, List.mem_filter.2 ⟨hlisted, Option.isSome_iff_ne_none.2 h⟩, rfl⟩

variable (d) (t : Time)

/-- The block when the timeout comes, at the time t: the stretched messages have ended, nothing is sent, and the timeout is
counted. -/
def Device.stuckEnded : Device :=
  { d with
    time := t
    twi := { d.twi with
      ctxs := (d.each d.stretched fun d c => d.modCtx c TwiCtx.aborted).twi.ctxs
      timeouts := satInc d.twi.timeouts
      reply := [] } }

/-- Ending messages does not depend on the time. -/
theorem Device.ctxs_each_modCtx_time (f : TwiCtx → TwiCtx) (cs : List Nat) :
    (({ d with time := t } : Device).each cs fun d c => d.modCtx c f).twi.ctxs =
      (d.each cs fun d c => d.modCtx c f).twi.ctxs := by
  induction cs generalizing d with
  | nil => rfl
  | cons c cs ih => exact ih (d.modCtx c f)

variable {d}

theorem Device.twiStuck_of_awake (h : d.awake = true) :
    d.twiStuck =
      ((d.stuckEnded (d.time.pass .a (30 * ms))).perr .a (twiP 0) 4).report .a (unitReport 0x6C 0x5D (twiP 0) 0 1) := by
  have hp : d.pins.porstLow = false := by
    simp only [Device.awake, Bool.and_eq_true, Bool.not_eq_true'] at h
    exact h.1
  simp only [Device.twiStuck, h, Bool.not_true, Bool.false_eq_true, if_false, advanceBy_of_clocked d hp]
  generalize d.time.pass .a (30 * ms) = t
  rw [each_modCtx_frame, stuckEnded, ← ctxs_each_modCtx_time d t]
  rfl

theorem Device.twiCtx_stuckEnded {c : Nat} (h : (d.twiCtx c).stretch ≠ none) :
    (d.stuckEnded t).twiCtx c = (d.twiCtx c).aborted := by
  have hctx := d.twiCtx_each_modCtx (f := TwiCtx.aborted) (fun _ => rfl) d.stretched c
  rw [if_pos (mem_stretched h)] at hctx
  exact hctx

/-- The block when the timeout comes, its PERR bit set and its report on the way, against the block before. -/
theorem Device.report_perr_stuckEnded {e : Device} {p : PageId} {bits : Nat} {r : Report}
    (he : e = ((d.stuckEnded t).perr .a p bits).report .a r) :
    e = { withRegs d e with time := e.time, cans := e.cans
                            twi := { d.twi with ctxs := e.twi.ctxs, timeouts := satInc d.twi.timeouts, reply := [] } }
      ∧ e.time = t ∧ (∀ c, (d.twiCtx c).stretch ≠ none → e.twiCtx c = (d.twiCtx c).aborted)
      ∧ e.reg .a p 0x14 = d.reg .a p 0x14 ||| w32 bits ∧ wordsKept d e [regKey .a p 0x14] ∧ reported d e .a r := by
  subst he
  exact ⟨rfl, rfl, fun c hc => twiCtx_stuckEnded t hc, (d.stuckEnded t).reg_perr_same .a p bits,
    (d.stuckEnded t).wordsKept_perr .a p bits, reported_report ((d.stuckEnded t).perr .a p bits) .a r⟩

end Stuck

/-! ## TWI frames (R360, R366) -/

section Frame

variable {d : Device}

/-- A frame over a live line dates the line's last frame and changes nothing else; none arrives while PORST_N is low. -/
theorem Device.bellFrame_of_bell {h : Half} (hb : (d.linkEnd h).bell = true) :
    d.bellFrame h =
      if d.pins.porstLow then d else d.setLinkEnd h { d.linkEnd h with lastFrame := d.tb h } := by
  simp [Device.bellFrame, hb]

@[simp] theorem Device.linkEnd_setLinkEnd (h g : Half) (x : LinkEnd) :
    (d.setLinkEnd h x).linkEnd g = if g = h then x else d.linkEnd g := by
  cases h <;> cases g <;> simp [Device.linkEnd, Device.setLinkEnd, Half.idx]

/-- Of either end nothing but that date may differ after the frame. -/
theorem Device.linkEnd_bellFrame_of_bell {h : Half} (hb : (d.linkEnd h).bell = true) (g : Half) :
    (d.bellFrame h).linkEnd g = { d.linkEnd g with lastFrame := ((d.bellFrame h).linkEnd g).lastFrame } := by
  rw [bellFrame_of_bell hb]
  split
  · rfl
  · rw [linkEnd_setLinkEnd]; split
    · next hg => rw [hg]
    · rfl

theorem Device.bellFrame_frame_of_bell {h : Half} (hb : (d.linkEnd h).bell = true) :
    d.bellFrame h = { d with link := { d.link with ends := (d.bellFrame h).link.ends } } := by
  rw [bellFrame_of_bell hb]; split <;> rfl

/-- Whether a message's half can reach TWI1 is the same before the frame and after it. -/
theorem Device.pmCut_bellFrame_of_bell {h : Half} (hb : (d.linkEnd h).bell = true) (s : PmSource) (m : PmMsg) :
    (d.bellFrame h).pmCut s m = d.pmCut s m := by
  simp only [Device.pmCut, Device.apart, Device.bellUp]
  rw [linkEnd_bellFrame_of_bell hb .a, linkEnd_bellFrame_of_bell hb .b]

/-- With no other message than Deputy's one, nothing else can come to the front; a full response queue holds it back. -/
theorem TwoWire.front_of_one_deputy {w : TwoWire} {m : PmMsg} (hdep : w.depq = [m]) (hovm : w.ovmq = [])
    (hpolls : w.polls = []) (hretry : w.retry = none) : w.front = none ∨ w.front = some (.deputy, m) := by
  by_cases hroom : (m.own || decide (w.rspd.length < 16)) = true
  · exact .inr (by simp [TwoWire.front, hretry, hdep, Option.filter_some, hroom])
  · exact .inl (by simp [TwoWire.front, hretry, hdep, hovm, hpolls, Option.filter_some, hroom])

/-- A well-formed message of Deputy's, from a half that reaches TWI1, waits at the front for its attempt. -/
theorem Device.pmSettle_of_deputy {m : PmMsg} (hretry : d.twi.retry = none)
    (hfront : d.twi.front = none ∨ d.twi.front = some (.deputy, m)) (hgood : m.malformed = false)
    (hcut : d.pmCut .deputy m = false) (n : Nat) : d.pmSettle n = d := by
  cases n with
  | zero => rfl
  | succ n =>
    obtain hf | hf := hfront
    · simp [Device.pmSettle, hf]
    · simp [Device.pmSettle, hretry, hf, hgood, hcut]

/-- Such a message joins the empty DEPQ, and nothing else changes. -/
theorem pmSettle_depq {m : PmMsg} (hq : quiet d) (hgood : m.malformed = false) (hcut : d.pmCut .deputy m = false)
    (n : Nat) :
    (d.modTwi fun t => { t with depq := t.depq ++ [m] }).pmSettle n = { d with twi := { d.twi with depq := [m] } } := by
  obtain ⟨hdep, hovm, -, hpolls, hretry⟩ := hq
  simp only [Device.modTwi, hdep, List.nil_append]
  exact Device.pmSettle_of_deputy (d := { d with twi := { d.twi with depq := [m] } }) hretry
    (TwoWire.front_of_one_deputy rfl hovm hpolls hretry) hgood hcut n

/-- Two words that arrive on Half B, with TWI1 quiet, are Deputy A's message in DEPQ. -/
theorem twiFrame_of_quiet {bytes : List Byte} {m : PmMsg} (hb : (d.linkEnd .b).bell = true) (hlen : bytes.length = 8)
    (hq : quiet d) (hm : m = { word0 := w32 (fieldAt bytes 0 4), word1 := w32 (fieldAt bytes 4 4), half := .a })
    (hgood : m.malformed = false) (hcut : d.pmCut .deputy m = false) :
    d.twiFrame .b bytes = { d.bellFrame .b with twi := { d.twi with depq := [m] } } := by
  have htwi : (d.bellFrame .b).twi = d.twi := by rw [Device.bellFrame_frame_of_bell hb]
  have hbell : ((d.bellFrame .b).linkEnd .b).bell = true := by rw [Device.linkEnd_bellFrame_of_bell hb]; exact hb
  have hqueue : quiet (d.bellFrame .b) := by unfold quiet; rwa [htwi]
  have hroom : ¬ 16 ≤ (d.bellFrame .b).twi.depq.length := by rw [hqueue.1]; decide
  have hjoin := pmSettle_depq hqueue hgood ((Device.pmCut_bellFrame_of_bell hb .deputy m).trans hcut) 40
  rw [← htwi, ← hjoin, hm]
  simp [Device.twiFrame, hbell, hlen, hroom]

end Frame

/-- Settles O58: a stretched message, a bus held low and a frame on a quiet TWI1 each have their own end alone. -/
theorem twiLimitsAndFrames : Obligations.TwiLimitsAndFrames := by
  refine ⟨rfl, fun s c read hst _ hp => ⟨s.dev.stretchLimit c, rfl, ?_⟩, fun s hawake _ => ⟨s.dev.twiStuck, rfl, ?_⟩,
    fun s bytes msg hb hlen hq hmsg hgood hcut => ⟨s.dev.twiFrame .b bytes, rfl, ?_⟩⟩
  · have htime : (s.dev.time.pass .a ms).tbA = s.dev.time.tbA + 100000#64 := Time.tbA_pass _ ms
    cases read with
    | true =>
      obtain ⟨h, hreport⟩ := stretchOver_of_report _ (Device.stretchLimit_of_read hst hp)
      exact ⟨h.frame, by rw [h.time, htime], by rw [h.ctx], h.others,
        fun _ => ⟨by rw [h.ctx]; rfl, h.reply, hreport⟩, by simp⟩
    | false =>
      obtain ⟨h, hcans⟩ := stretchOver_of_twiReply _ (Device.stretchLimit_of_status hst hp)
      exact ⟨h.frame, by rw [h.time, htime], by rw [h.ctx], h.others, by simp,
        fun _ => ⟨h.reply, by rw [h.ctx], hcans⟩⟩
  · have htime : (s.dev.time.pass .a (30 * ms)).tbA = s.dev.time.tbA + 3000000#64 := Time.tbA_pass _ (30 * ms)
    obtain ⟨hframe, ht, hctx, hperr, hkept, hreport⟩ :=
      Device.report_perr_stuckEnded _ (Device.twiStuck_of_awake hawake)
    refine ⟨hframe, by rw [ht, htime], fun c hc => ?_, hperr, hkept, hreport⟩
    rw [hctx c hc]
    exact ⟨rfl, rfl⟩
  · rw [twiFrame_of_quiet hb hlen hq hmsg hgood hcut]
    refine ⟨by rw [Device.bellFrame_frame_of_bell hb], fun hp => ?_, ?_⟩
    · change (s.dev.bellFrame .b).linkEnd .b = _
      simp [Device.bellFrame_of_bell hb, hp]
    · change (s.dev.bellFrame .b).linkEnd .a = _
      rw [Device.bellFrame_of_bell hb]
      split <;> simp

end Sys2Proof.Machine
end
